-- ==== Sys2Proof/Word.lean ====
section
/-! DEFINITION. The word types of SBMC (spec/00_scope.md R8): bytes and 32-bit words as bit vectors. -/

namespace Sys2Proof

/-- A `u8` of the spec. -/
abbrev Byte := BitVec 8

/-- A 32-bit register or command word; an `i32` is held as its two's-complement pattern (R8). -/
abbrev Word := BitVec 32

/-- A 7-bit slave address (`SA_BITS` = 7, R6). -/
abbrev BusAddr := BitVec 7

end Sys2Proof
end

