-- ==== Sys2Proof/Syntax.lean ====
section
/-! DEFINITION. The commands of SBMC: one constructor per row of the opcode map (spec/30_encoding.md R113). -/

namespace Sys2Proof

/-- A command with its operands, each of the width of its field (R111, R116). -/
inductive Instr where
  /-- Initialise the bus master (R160). -/
  | initm
  /-- Select the slave; `addr = A[6:0]` (R161). -/
  | setsa (addr : BusAddr)
  /-- Write one byte (R163). -/
  | wrb (data : Byte)
  /-- Write `length` bytes from TXB (R164). -/
  | wrbs (length : Byte)
  /-- Write one slave register (R165). -/
  | wrr (reg data : Byte)
  /-- Read one slave register (R166). -/
  | rdr (reg : Byte)
  /-- Burst-read `count` consecutive slave registers (R167). -/
  | rdrs (firstAddr count : Byte)
  /-- Read one sample (R191). -/
  | rdxyz
  /-- Decode one 12-bit sample (R192). -/
  | dec12 (low high : Byte)
  /-- Clear the accumulator (R193). -/
  | sclr
  /-- Accumulate the current sample (R194). -/
  | sacc
  /-- Average, mask and deliver to the integrator (R195). -/
  | savg
  /-- Update velocity (R221). -/
  | updv
  /-- Update distance (R222). -/
  | updd
  /-- Start the course (R241). -/
  | run
  deriving DecidableEq, Repr

end Sys2Proof
end

