-- ==== Sys2Proof/Config.lean ====
section
/-! DEFINITION. The build parameters of SBMC (spec/00_scope.md R6, R7) and the free values: what the spec calls
unspecified after reset (spec/10_state.md R48, spec/70_reset_and_hazards.md R311). A free value is an opaque constant
with no body, so nothing can be proved of which value it is. -/

namespace Sys2Proof

/-- The bytes State holds for each of TXB and RXB: the largest depth a build may have (R6). The build's depth says how
many of them a command may use (DESIGN CHOICE, safe: log 7). -/
abbrev bufferSize : Nat := 255

/-- The registers the host's map has for each of TXB and RXB (R20, R24). -/
abbrev mappedBytes : Nat := 16

/-- A 2-byte drive command; `b0` is sent first (R7, R258). -/
structure DriveCommand where
  b0 : Byte
  b1 : Byte
  deriving DecidableEq, Repr, Inhabited

/-- Which sample component feeds the integrator (`DRIVE_AXIS`, R6). -/
inductive Axis where
  | x
  | y
  | z
  deriving DecidableEq, Repr, Inhabited

/-- The build parameters the source leaves without any value (R7). The table `CMD_SPEED[1..N_RAMP]` is the list
`cmdSpeed`, first entry `CMD_SPEED[1]`, and `N_RAMP` is its length. -/
structure OpenParams where
  sensorAddr : BusAddr
  regData0 : Byte
  regCtrl : Byte
  valActive : Byte
  valCal : Byte
  regOfs0 : Byte
  /-- Named by the source, used by no rule (R7). -/
  regId : Byte
  /-- `DIST_TARGET`, a signed 32-bit value. -/
  distTarget : Word
  dwellTicks : BitVec 16
  cmdSpeed : List DriveCommand
  cmdStop : DriveCommand
  cmdReverse : DriveCommand
  /-- Real time; no rule reads it (R7, R326). -/
  tTick : Nat
  /-- Real time, host side; no rule reads it (R7, R326). -/
  pwrSettle : Nat
  /-- Real time, host side; no rule reads it (R7, R326). -/
  calSettle : Nat
  deriving DecidableEq, Repr, Inhabited

/-- One build of the hardware: the parameters of R6 with the values the spec chose, the open ones of R7, and the
bus address of the reference slave (spec/20_memory.md R91). -/
structure Config where
  /-- `W`: the width of ACC, VEL, DIST, SUM and the samples. The rules, and `Word`, are for 32 (R8, R26; log 7). -/
  width : Nat := 32
  scale : Nat := 1000
  dt : Nat := 100
  nAvg : Nat := 4
  maskBits : Nat := 0
  driveAxis : Axis := .x
  /-- `DIST_START`, a signed 32-bit value. -/
  distStart : Word := 0
  txbDepth : Nat := 16
  rxbDepth : Nat := 16
  /-- `SA_BITS`: the width of a slave address. The rules, and `BusAddr`, are for 7 (R25, R161; log 7). -/
  saBits : Nat := 7
  /-- `WAIT_LIMIT`: `none` is no bound, which this edition of the spec fixes (R297; log 7). -/
  waitLimit : Option Nat := none
  params : OpenParams
  slvAddr : BusAddr
  deriving DecidableEq, Repr, Inhabited

/-- `N_RAMP`, the number of speed commands of the ramp (R7). -/
def Config.nRamp (c : Config) : Nat := c.params.cmdSpeed.length

/-- The open parameters of the build that `State.reset` is of: free, since the source gives none of them (R7; log 6). -/
opaque Config.freeParams : OpenParams

/-- The reference slave's bus address in that build: free (R91; log 6). -/
opaque Config.freeSlvAddr : BusAddr

/-- The build that `State.reset` is of: the spec's chosen values (R6), every open parameter free (R7). -/
def Config.build : Config := { params := Config.freeParams, slvAddr := Config.freeSlvAddr }

/-! The value of each engine and transport field after the `n`-th reset: unspecified (R48, R311 (a), (b); log 4). -/

opaque Config.freeEngSa : Nat → BusAddr
opaque Config.freeEngTr : Nat → Bool
opaque Config.freeEngStt : Nat → Bool
opaque Config.freeEngStp : Nat → Bool
opaque Config.freeEngTxbuf : Nat → Byte
opaque Config.freeEngTxrdy : Nat → Bool
opaque Config.freeEngRxbuf : Nat → Byte
opaque Config.freeEngRxrdy : Nat → Bool
opaque Config.freeEngBusy : Nat → Bool
opaque Config.freeOtxData0 : Nat → Byte
opaque Config.freeOtxData1 : Nat → Byte
opaque Config.freeOtxBusy : Nat → Bool

/-- The reference slave's pointer at power-on: any value (R311 (c), U11; log 5). -/
opaque Config.freeSlvPtr : Byte

/-- The reference slave's FIRST flag at power-on: any value (R311 (c), U11; log 5). -/
opaque Config.freeSlvFirst : Bool

end Sys2Proof
end

