-- ==== Sys2Proof/WellFormed.lean ====
section
/-! DEFINITION. What is well formed: a command, and a build (the constraints of spec/00_scope.md R6 and R7). -/

namespace Sys2Proof

/-- A command is well formed when every operand fits its field. The operand types are the fields' own widths (R111,
R116), so every term is; a length or count outside the buffer's depth is a legal encoding, refused by value (R117). -/
def Instr.wellFormed : Instr → Bool
  | .initm => true
  | .setsa _ => true
  | .wrb _ => true
  | .wrbs _ => true
  | .wrr _ _ => true
  | .rdr _ => true
  | .rdrs _ _ => true
  | .rdxyz => true
  | .dec12 _ _ => true
  | .sclr => true
  | .sacc => true
  | .savg => true
  | .updv => true
  | .updd => true
  | .run => true

/-- The constraints a build must meet: `SCALE ≥ 1`; `1 ≤ DT ≤ 2^31 − 1`; `N_AVG` 4 or 8; `MASK_BITS ≤ 11`;
`7 ≤ RXB_DEPTH ≤ 255`; `1 ≤ TXB_DEPTH ≤ 255` (R6); `N_RAMP` in 1..255 (R7). The other ranges of R7 are the fields'
widths. `W`, `SA_BITS` and `WAIT_LIMIT` have the only values the rules are written for (DESIGN CHOICE, safe: log 7). -/
def Config.wellFormed (c : Config) : Bool :=
  decide (1 ≤ c.scale) && decide (1 ≤ c.dt) && decide (c.dt ≤ 2 ^ 31 - 1)
    && (decide (c.nAvg = 4) || decide (c.nAvg = 8)) && decide (c.maskBits ≤ 11)
    && decide (7 ≤ c.rxbDepth) && decide (c.rxbDepth ≤ 255) && decide (1 ≤ c.txbDepth) && decide (c.txbDepth ≤ 255)
    && decide (c.width = 32) && decide (c.saBits = 7) && decide (c.waitLimit = none)
    && decide (1 ≤ c.nRamp) && decide (c.nRamp ≤ 255)

end Sys2Proof
end

