-- ==== Sys2Proof/Decode.lean ====
section
/-! DEFINITION. The command word: its fields (spec/30_encoding.md R110), the opcode map as data (R113), the decoder
(R112 step 3, R114, R115), and the encoder (R119). -/

namespace Sys2Proof

/-- `OPC`, bits 31:24 (R110). -/
def opcField (w : Word) : Byte := w.extractLsb' 24 8

/-- `A`, bits 23:16 (R110). -/
def aField (w : Word) : Byte := w.extractLsb' 16 8

/-- `B`, bits 15:8 (R110). -/
def bField (w : Word) : Byte := w.extractLsb' 8 8

/-- `C`, bits 7:0 (R110). -/
def cField (w : Word) : Byte := w.extractLsb' 0 8

/-- The command word with the four given fields: `OPC << 24 | a << 16 | b << 8` and the reserved `C` (R110, R119). -/
def commandWord (opc a b c : Byte) : Word :=
  opc.setWidth 32 <<< 24 ||| a.setWidth 32 <<< 16 ||| b.setWidth 32 <<< 8 ||| c.setWidth 32

/-- Why a word is no command; both are refused with ILLCMD (R282). -/
inductive DecodeError where
  /-- `OPC` is none of the 15 assigned values (R115). -/
  | unassignedOpcode
  /-- A reserved field is not zero (R114). -/
  | reservedField
  deriving DecidableEq, Repr

/-- `i` where the reserved bits are zero, a refusal where they are not (R114). -/
def reservedZero (zero : Bool) (i : Instr) : Except DecodeError Instr :=
  if zero then .ok i else .error .reservedField

/-- Decoding is total on 32-bit words (R112 step 3, R113 to R115). -/
def decode (w : Word) : Except DecodeError Instr :=
  let a := aField w
  let b := bField w
  let c := cField w
  let noABC := a == 0 && b == 0 && c == 0
  let noBC := b == 0 && c == 0
  match (opcField w).toNat with
  | 0x01 => reservedZero noABC .initm
  | 0x02 => reservedZero (!a.getLsbD 7 && noBC) (.setsa (a.extractLsb' 0 7))
  | 0x03 => reservedZero noBC (.wrb a)
  | 0x04 => reservedZero noBC (.wrbs a)
  | 0x05 => reservedZero (c == 0) (.wrr a b)
  | 0x06 => reservedZero noBC (.rdr a)
  | 0x07 => reservedZero (c == 0) (.rdrs a b)
  | 0x10 => reservedZero noABC .rdxyz
  | 0x11 => reservedZero (c == 0) (.dec12 a b)
  | 0x12 => reservedZero noABC .sclr
  | 0x13 => reservedZero noABC .sacc
  | 0x14 => reservedZero noABC .savg
  | 0x20 => reservedZero noABC .updv
  | 0x21 => reservedZero noABC .updd
  | 0x30 => reservedZero noABC .run
  | _ => .error .unassignedOpcode

/-- The command word of a command: `OPC << 24 | a << 16 | b << 8` (R119). -/
def encode : Instr → Word
  | .initm => commandWord 0x01 0 0 0
  | .setsa addr => commandWord 0x02 (addr.setWidth 8) 0 0
  | .wrb data => commandWord 0x03 data 0 0
  | .wrbs length => commandWord 0x04 length 0 0
  | .wrr reg data => commandWord 0x05 reg data 0
  | .rdr reg => commandWord 0x06 reg 0 0
  | .rdrs firstAddr count => commandWord 0x07 firstAddr count 0
  | .rdxyz => commandWord 0x10 0 0 0
  | .dec12 low high => commandWord 0x11 low high 0
  | .sclr => commandWord 0x12 0 0 0
  | .sacc => commandWord 0x13 0 0 0
  | .savg => commandWord 0x14 0 0 0
  | .updv => commandWord 0x20 0 0 0
  | .updd => commandWord 0x21 0 0 0
  | .run => commandWord 0x30 0 0 0

/-- One row of the opcode map (R113): a word `w` selects it when `w & mask = value`. -/
structure OpcodeRow where
  mnemonic : String
  value : Word
  mask : Word
  deriving DecidableEq, Repr

/-- The opcode map, transcribed from R113 (columns `match` and `mask`). -/
def opcodeRows : List OpcodeRow :=
  [⟨"INITM", 0x01000000, 0xFFFFFFFF⟩, ⟨"SETSA", 0x02000000, 0xFF80FFFF⟩, ⟨"WRB", 0x03000000, 0xFF00FFFF⟩,
   ⟨"WRBS", 0x04000000, 0xFF00FFFF⟩, ⟨"WRR", 0x05000000, 0xFF0000FF⟩, ⟨"RDR", 0x06000000, 0xFF00FFFF⟩,
   ⟨"RDRS", 0x07000000, 0xFF0000FF⟩] ++
  [⟨"RDXYZ", 0x10000000, 0xFFFFFFFF⟩, ⟨"DEC12", 0x11000000, 0xFF0000FF⟩, ⟨"SCLR", 0x12000000, 0xFFFFFFFF⟩,
   ⟨"SACC", 0x13000000, 0xFFFFFFFF⟩, ⟨"SAVG", 0x14000000, 0xFFFFFFFF⟩, ⟨"UPDV", 0x20000000, 0xFFFFFFFF⟩,
   ⟨"UPDD", 0x21000000, 0xFFFFFFFF⟩, ⟨"RUN", 0x30000000, 0xFFFFFFFF⟩]

/-- `w` selects the row (R113). -/
def OpcodeRow.selects (r : OpcodeRow) (w : Word) : Bool := w &&& r.mask == r.value

/-- The mnemonic of a command (R113). -/
def Instr.mnemonic : Instr → String
  | .initm => "INITM"
  | .setsa _ => "SETSA"
  | .wrb _ => "WRB"
  | .wrbs _ => "WRBS"
  | .wrr _ _ => "WRR"
  | .rdr _ => "RDR"
  | .rdrs _ _ => "RDRS"
  | .rdxyz => "RDXYZ"
  | .dec12 _ _ => "DEC12"
  | .sclr => "SCLR"
  | .sacc => "SACC"
  | .savg => "SAVG"
  | .updv => "UPDV"
  | .updd => "UPDD"
  | .run => "RUN"

/-- The low `nbits` bits of `w` as a command word. A command word is presented whole (R112): it is one 32-bit word
and stands in no byte-addressed memory. -/
def tableWord (nbits w : Nat) : Word := BitVec.ofNat 32 (w % 2 ^ nbits)

/-- What the decoder reads from a table row's word, bit 0 its least significant bit. -/
def decodeTableWord (nbits w : Nat) : Option Instr :=
  match decode (tableWord nbits w) with
  | .ok i => some i
  | .error _ => none

end Sys2Proof
end

