-- ==== Sys2Proof/Machine/State.lean ====
section
/-! DEFINITION. The state of SBMC and of the agents around it, as plain data (spec/10_state.md, spec/20_memory.md R70
and R85 to R93, spec/43_clf.md R240 and R258), and the state after reset (R48, R310, R311). -/

namespace Sys2Proof.Machine

/-- `CLS.PHASE` (R29): codes 0, 1, 2, 3 in this order. -/
inductive Phase where
  | accelerating
  | cruisingForward
  | reversing
  | stopped
  deriving DecidableEq, Repr

/-- `CLF.TPC`, the position in the tick program (R36, R245): codes 0 to 8 in this order. -/
inductive TickPos where
  /-- 0: waiting for a tick (T_WAIT / T_START). -/
  | wait
  /-- 1: T_SCLR. -/
  | sclr
  /-- 2: T_READ. -/
  | read
  /-- 3: T_ACC. -/
  | acc
  /-- 4: T_AVG. -/
  | avg
  /-- 5: T_UPDV. -/
  | updv
  /-- 6: T_UPDD. -/
  | updd
  /-- 7: T_PHEV. -/
  | phev
  /-- 8: T_EMIT. -/
  | emit
  deriving DecidableEq, Repr

/-- The 13 micro-operations of the BTC (R141): five waits and eight actions. -/
inductive MicroOp where
  | wIdle
  | wTx
  | wStt
  | wStp
  | wRx
  | init
  | startW
  | startR
  | tx (b : Byte)
  | stop
  | nackStop
  | rx (k : Fin bufferSize)
  | latchSa (a : BusAddr)
  deriving DecidableEq, Repr

/-- An entry of the action trace `ACT` (R64, R141). -/
inductive Action where
  | init
  | startW
  | startR
  | tx (b : Byte)
  | stop
  | nackStop
  | rx (k : Fin bufferSize) (b : Byte)
  deriving DecidableEq, Repr

/-- An event of the wire trace `WIRE` (R64). -/
inductive WireEvent where
  /-- START on an idle bus. -/
  | s
  /-- Repeated START. -/
  | sr
  /-- Address byte; `rw` is false for write, true for read. -/
  | ad (a : BusAddr) (rw : Bool)
  | ackS
  | nackS
  | dw (b : Byte)
  | dr (b : Byte)
  | ackM
  | nackM
  /-- STOP. -/
  | p
  deriving DecidableEq, Repr

/-- The engine interface `ENG`: nine fields shared by the BTC and the bus engine (R70). -/
structure Eng where
  sa : BusAddr
  /-- Direction: true is transmitter. -/
  tr : Bool
  stt : Bool
  stp : Bool
  txbuf : Byte
  txrdy : Bool
  rxbuf : Byte
  rxrdy : Bool
  busy : Bool
  deriving DecidableEq, Repr

/-- `MODE` of the reference engine (R85). -/
inductive RefMode where
  | off
  | idle
  | txOpen
  | rxOpen
  | dead
  deriving DecidableEq, Repr

/-- The slave's register file as a list of (address, byte) cells in canonical form (`Memory.wf`, Machine/Ops.lean). -/
abbrev Memory := List Host.Cell

/-- The reference slave (R91); its bus address is a parameter of the build. -/
structure Slave where
  ptr : Byte
  first : Bool
  sreg : Memory
  deriving DecidableEq, Repr

/-- The output transport's three fields (R258). -/
structure Otx where
  data0 : Byte
  data1 : Byte
  busy : Bool
  deriving DecidableEq, Repr

/-- One request of the host at the port (R44): `HostRead(off)` or `HostWrite(off, v)`; `HRD` and `HWR` of R119. -/
inductive HostReq where
  | read (off : BitVec 8)
  | write (off : BitVec 8) (v : Word)
  deriving DecidableEq, Repr

/-- One step of one agent (R11). A step that is not enabled changes nothing (log 3). -/
inductive Event where
  /-- HOST: the first pending request is served, if SBMC is idle (R44). -/
  | host
  /-- The SBMC sequencer: a micro-operation (R143, R144) or a tick-program step (R244, R245). -/
  | sbmc
  /-- ENG with SLV: a step of the reference engine (R86 to R90). -/
  | engine
  /-- ENG with SLV, unconstrained: any values in the engine fields, any bus events (R84; log 13). -/
  | engineSets (e : Eng) (w : List WireEvent)
  /-- The environment changes one slave register (R93). -/
  | slaveSets (a v : Byte)
  /-- OTX clears its BUSY (R260). -/
  | otx
  /-- TICK: TickArrive (R291). -/
  | tick
  /-- The reset event (R310). -/
  | rst
  deriving DecidableEq, Repr

/-- The eight refusals of the spec; the code is the bit number in FAULT (R22). These are next states, not outcomes
that stop the machine. -/
inductive FaultCode where
  | illcmd
  | badlen
  | noinit
  | noaddr
  | badseq
  | iovf
  | hacc
  | clfown
  deriving DecidableEq, Repr

/-- Why a step stops the model. -/
inductive Fault where
  /-- Raised by the phase evaluation T_PHEV (R249) when `CMD_SPEED[RAMP + 1]` does not exist in the build. The spec gives
  such an entry no meaning. Safe: no state of a well-formed build that meets the model's invariant raises it (log 10). -/
  | noSpeedCommand
  deriving DecidableEq, Repr

/-- Why a step has no meaning in the model. -/
inductive Refusal where
  /-- Raised by `exec` for a command without a meaning. Safe. Every command has its meaning, so nothing raises it. -/
  | notModelled (mnemonic : String)
  deriving DecidableEq, Repr

/-- The state of SBMC, its environment and its traces. -/
structure State where
  /-- The build parameters (R6, R7). No step changes them. The model's own field (log 6). -/
  cfg : Config
  /-- `STATUS.TICK_PEND` (R21). -/
  tickPend : Bool
  /-- `STATUS.TICK_OVR` (R21). -/
  tickOvr : Bool
  /-- `FAULT` (R22). -/
  fault : BitVec 8
  /-- `FINFO` (R23). -/
  finfo : Word
  /-- `RES` (R23). -/
  res : Word
  /-- `BCTL.SA` (R25). -/
  sa : BusAddr
  /-- `BCTL.SA_VALID` (R25). -/
  saValid : Bool
  /-- `BCTL.INIT_DONE` (R25). -/
  initDone : Bool
  /-- `ACC` (R26). -/
  acc : Word
  /-- `VEL` (R26). -/
  vel : Word
  /-- `DIST` (R26). -/
  dist : Word
  /-- `SX` (R27). -/
  sx : Word
  /-- `SY` (R27). -/
  sy : Word
  /-- `SZ` (R27). -/
  sz : Word
  /-- `SST` (R27). -/
  sst : Byte
  /-- `SUM` (R28). -/
  sum : Word
  /-- `SCNT` (R28). -/
  scnt : BitVec 8
  /-- `CLS.PHASE` (R29). -/
  phase : Phase
  /-- `CLS.RUN` (R29): true is AUTO mode. -/
  run : Bool
  /-- `CLS.RAMP` (R29). -/
  ramp : BitVec 8
  /-- `CLS.DWELL` (R29). -/
  dwell : BitVec 16
  /-- `TXB` (R24); the build's `txbDepth` says how many of the bytes WRBS may send (log 7). -/
  txb : Vector Byte bufferSize
  /-- `RXB` (R24); the build's `rxbDepth` says how many of the bytes a burst may fill (log 7). -/
  rxb : Vector Byte bufferSize
  /-- `BTC.ULIST` (R30). -/
  ulist : List MicroOp
  /-- `BTC.STEP` (R30): 0, or the number, from 1, of the next micro-operation. -/
  btcStep : Nat
  /-- The command in progress is RDXYZ (implied by R191; DEDUCED, safe: log 9). -/
  btcXyz : Bool
  /-- `CLF.TPC` (R36). -/
  tpc : TickPos
  /-- `CLF.SREP` (R36). -/
  srep : Nat
  /-- `CLF.EQ` (R36, R240). -/
  emitq : List DriveCommand
  /-- `ENG` (R70). -/
  eng : Eng
  /-- The reference engine's MODE (R85). -/
  mode : RefMode
  /-- The reference slave (R91). -/
  slv : Slave
  /-- `OTX` (R258). -/
  otx : Otx
  /-- The trace `ACT` (R39, R141), oldest first. -/
  act : List Action
  /-- The trace `WIRE` (R39, R64), oldest first. -/
  wire : List WireEvent
  /-- The trace `OUT` (R39, R259), oldest first. -/
  out : List DriveCommand
  /-- `h_rdata` as the last served read left it (R44; log 11). -/
  hrdata : Word
  /-- The host's coming requests, the first one pending at the port (R44). The model's own field (log 1). -/
  hostq : List HostReq
  /-- The coming agent events. The model's own field (log 1). -/
  sched : List Event
  /-- How many resets have drawn free values. The model's own field (log 4). -/
  draws : Nat
  deriving DecidableEq, Repr

/-- The engine fields after the `n`-th reset: unspecified (R48, R311). -/
def Eng.afterReset (n : Nat) : Eng where
  sa := Config.freeEngSa n
  tr := Config.freeEngTr n
  stt := Config.freeEngStt n
  stp := Config.freeEngStp n
  txbuf := Config.freeEngTxbuf n
  txrdy := Config.freeEngTxrdy n
  rxbuf := Config.freeEngRxbuf n
  rxrdy := Config.freeEngRxrdy n
  busy := Config.freeEngBusy n

/-- The transport's fields after the `n`-th reset: unspecified (R48, R311). -/
def Otx.afterReset (n : Nat) : Otx where
  data0 := Config.freeOtxData0 n
  data1 := Config.freeOtxData1 n
  busy := Config.freeOtxBusy n

/-- The machine right after power-on reset (R48, R310, R311): every SBMC register 0, sequencers idle, queues and traces
empty; engine and transport fields free; the reference engine Off (R85); the slave with nothing listed (log 5). -/
def State.reset : State where
  cfg := Config.build
  tickPend := false
  tickOvr := false
  fault := 0
  finfo := 0
  res := 0
  sa := 0
  saValid := false
  initDone := false
  acc := 0
  vel := 0
  dist := 0
  sx := 0
  sy := 0
  sz := 0
  sst := 0
  sum := 0
  scnt := 0
  phase := .accelerating
  run := false
  ramp := 0
  dwell := 0
  txb := Vector.replicate bufferSize 0
  rxb := Vector.replicate bufferSize 0
  ulist := []
  btcStep := 0
  btcXyz := false
  tpc := .wait
  srep := 0
  emitq := []
  eng := Eng.afterReset 0
  mode := .off
  slv := { ptr := Config.freeSlvPtr, first := Config.freeSlvFirst, sreg := [] }
  otx := Otx.afterReset 0
  act := []
  wire := []
  out := []
  hrdata := 0
  hostq := []
  sched := []
  draws := 1

end Sys2Proof.Machine
end

