-- ==== Sys2Proof/Machine/Ops.lean ====
section
/-! DEFINITION. The named operations over the state: the slave's memory, raising a fault (spec/60_exceptions.md R281),
command acceptance (spec/30_encoding.md R112), loading a transaction (spec/40_btc_commands.md R159), and the trace
appends. There is no return from a fault: the spec has none (R295). -/

namespace Sys2Proof.Machine

/-! ### The slave's register file as a canonical memory -/

/-- What a slave register nothing has written reads as. The spec gives no value (R311 (c)): DESIGN CHOICE, unsafe (log 5). -/
def Memory.unlisted : Byte := 0

/-- The register at address `a`. -/
def Memory.read : Memory → Nat → Byte
  | [], _ => Memory.unlisted
  | (k, v) :: rest, a => if k = a then v else Memory.read rest a

/-- `m` without a cell at `a`. -/
def Memory.erase : Memory → Nat → Memory
  | [], _ => []
  | (k, w) :: rest, a => if k = a then rest else (k, w) :: Memory.erase rest a

/-- `m` with the cell `(a, v)`, addresses kept rising. -/
def Memory.put : Memory → Nat → Byte → Memory
  | [], a, v => [(a, v)]
  | (k, w) :: rest, a, v =>
    if a < k then (a, v) :: (k, w) :: rest
    else if k = a then (a, v) :: rest
    else (k, w) :: Memory.put rest a v

/-- `m` after writing `v` at `a`: writing what an unlisted address reads as removes the cell. -/
def Memory.write (m : Memory) (a : Nat) (v : Byte) : Memory :=
  if v = Memory.unlisted then m.erase a else m.put a v

/-- The cells rise strictly from `lo` on, stay inside the 256 registers (R91), and none holds the unlisted value. -/
def Memory.wfFrom : Nat → Memory → Bool
  | _, [] => true
  | lo, (k, v) :: rest => decide (lo ≤ k) && decide (k < 256) && v != Memory.unlisted && Memory.wfFrom (k + 1) rest

/-- The canonical form: equal memories are equal lists. -/
def Memory.wf (m : Memory) : Bool := Memory.wfFrom 0 m

/-! ### Faults -/

/-- The code of a fault: its bit number in FAULT (R22). -/
def FaultCode.code : FaultCode → Nat
  | .illcmd => 0
  | .badlen => 1
  | .noinit => 2
  | .noaddr => 3
  | .badseq => 4
  | .iovf => 5
  | .hacc => 6
  | .clfown => 7

/-- The FAULT bit of a fault (R22). -/
def FaultCode.bit (c : FaultCode) : BitVec 8 := 1#8 <<< c.code

/-- `raise F(info)` (R281): the one way an exception of this machine is taken. -/
def raise (c : FaultCode) (info : Word) (s : State) : State :=
  { s with
    fault := s.fault ||| c.bit
    finfo := info
    tpc := .wait
    srep := 0
    emitq := [] }

/-! ### Idleness, the source of a command, acceptance -/

/-- `SBMC_IDLE` (R31). -/
def State.idle (s : State) : Bool := s.btcStep == 0 && s.tpc == .wait

/-- Who presents a command: the host presents only in SBMC_IDLE, the tick program only from its positions 1 to 6 (R44,
R112, R245), so the position tells them apart (DEDUCED, safe: log 8). -/
def State.hostPresents (s : State) : Bool := s.tpc == .wait

/-- Command acceptance up to the command's own checks (R112): no step while a command is in progress; (1) discarded
while FAULT ≠ 0; (2) CLFOWN for a host command in AUTO mode; then `body`, which is steps (3) to (5). -/
def accept (cw : Word) (body : State → State) (s : State) : State :=
  if s.btcStep ≠ 0 then s
  else if s.fault ≠ 0 then s
  else if s.hostPresents && s.run then raise .clfown cw s
  else body s

/-- A transaction command is accepted: its list is loaded (R112 step 5). -/
def loadList (l : List MicroOp) (s : State) : State :=
  { s with ulist := l, btcStep := 1, btcXyz := false }

/-- As `loadList`, for RDXYZ, whose last micro-operation also decodes the sample (R191). -/
def loadSampleRead (l : List MicroOp) (s : State) : State :=
  { s with ulist := l, btcStep := 1, btcXyz := true }

/-- The checks common to the transaction commands, in their order: NOINIT, then NOADDR (R159, R284, R285). -/
def transaction (cw : Word) (body : State → State) (s : State) : State :=
  if s.initDone = false then raise .noinit cw s
  else if s.saValid = false then raise .noaddr cw s
  else body s

/-- BADLEN for a length or count outside 1..`depth` (R283); then `body`. -/
def checkLength (n : Byte) (depth : Nat) (cw : Word) (body : State → State) (s : State) : State :=
  if n.toNat = 0 ∨ depth < n.toNat then raise .badlen cw s else body s

/-! ### Traces -/

/-- `emit` on the action trace (R10, R141). -/
def emitAct (a : Action) (s : State) : State := { s with act := s.act ++ [a] }

/-- `emit` on the wire trace (R10, R64). -/
def emitWire (w : List WireEvent) (s : State) : State := { s with wire := s.wire ++ w }

end Sys2Proof.Machine
end

