-- ==== Sys2Proof/Machine/Engine.lean ====
section
/-! DEFINITION. The reference engine and the reference slave (spec/20_memory.md R85 to R92). They are the spec's own
construction, for simulation; a claim about any engine uses the unconstrained environment (R84). -/

namespace Sys2Proof.Machine

/-- The slave acknowledges an address byte exactly when it is its own; an acknowledged write address sets FIRST (R91). -/
def slaveAcks (s : State) : Bool := s.eng.sa == s.cfg.slvAddr

/-- `slave_write(b)` (R92). -/
def slaveWrite (b : Byte) (v : Slave) : Slave :=
  if v.first then { v with ptr := b, first := false }
  else { v with sreg := v.sreg.write v.ptr.toNat b, ptr := v.ptr + 1 }

/-- The byte `slave_next()` returns (R92). -/
def Slave.nextByte (v : Slave) : Byte := v.sreg.read v.ptr.toNat

/-- The slave after `slave_next()` (R92). -/
def slaveNext (v : Slave) : Slave := { v with ptr := v.ptr + 1 }

/-- E-STARTW (R86). -/
def engStartW (s : State) : State :=
  if slaveAcks s then
    emitWire [.s, .ad s.eng.sa false, .ackS]
      { s with
        eng := { s.eng with busy := true, stt := false, txrdy := true }
        slv := { s.slv with first := true }
        mode := .txOpen }
  else
    emitWire [.s, .ad s.eng.sa false, .nackS] { s with eng := { s.eng with busy := true }, mode := .dead }

/-- E-TX (R87). -/
def engTx (s : State) : State :=
  emitWire [.dw s.eng.txbuf, .ackS]
    { s with eng := { s.eng with txrdy := true }, slv := slaveWrite s.eng.txbuf s.slv }

/-- E-STOPW (R88). -/
def engStopW (s : State) : State :=
  emitWire [.p] { s with eng := { s.eng with stp := false, busy := false, txrdy := false }, mode := .idle }

/-- E-STARTR (R89). -/
def engStartR (s : State) : State :=
  emitWire [.sr, .ad s.eng.sa true, .ackS]
    { s with eng := { s.eng with stt := false, txrdy := false }, mode := .rxOpen }

/-- E-RX (R90). With a byte left over from an earlier read the reads are shifted by one (R318). DESIGN CHOICE (log 29): R318
says that every shifted read leaves its own last byte behind; R80, R90 and R142, which the model follows, give that for a
count of 1 only. For a count of 2 or more the reception answered with NACK closes the transaction one byte early, its
byte is taken by the last RX, and RXRDY ends 0. -/
def engRx (s : State) : State :=
  let b := s.slv.nextByte
  if s.eng.stp then
    emitWire [.dr b, .nackM, .p]
      { s with
        eng := { s.eng with rxbuf := b, rxrdy := true, stp := false, busy := false }
        slv := slaveNext s.slv
        mode := .idle }
  else
    emitWire [.dr b, .ackM] { s with eng := { s.eng with rxbuf := b, rxrdy := true }, slv := slaveNext s.slv }

/-- The enabled step of the reference engine, if one is (R86 to R90): no other combination enables a step. -/
def engineMove (s : State) : Option (State → State) :=
  match s.mode with
  | .off => none
  | .dead => none
  | .idle => if s.eng.stt && s.eng.tr then some engStartW else none
  | .txOpen =>
    if !s.eng.txrdy then some engTx
    else if s.eng.stp && !s.eng.stt then some engStopW
    else if s.eng.stt && !s.eng.tr then some engStartR
    else none
  | .rxOpen => if !s.eng.rxrdy then some engRx else none

/-- The reference engine has an enabled step. -/
def State.engineEnabled (s : State) : Bool := (engineMove s).isSome

/-- One step of the reference engine; none leaves the state as it is (log 3). -/
def engineStep (s : State) : State :=
  match engineMove s with
  | none => s
  | some f => f s

end Sys2Proof.Machine
end

