-- ==== Sys2Proof/Machine/Flags.lean ====
section
/-! DEFINITION. Flags. The hardware has no arithmetic condition codes (spec/10_state.md R37, spec/42_miu.md R225). What
it has: the wait conditions on the engine's flags (spec/40_btc_commands.md R145 to R149), the range check behind IOVF
(spec/00_scope.md R9), and the registers made of flags: STATUS (R21), BCTL (R25), CLS (R29). -/

namespace Sys2Proof.Machine

/-- `fits32(v)` (R9). -/
def fits32 (v : Int) : Bool := decide (-2 ^ 31 ≤ v) && decide (v ≤ 2 ^ 31 - 1)

/-- Whether a micro-operation is enabled: a wait by its condition on the engine fields as they are at that step (R143,
R145 to R149), an action always (R144). -/
def MicroOp.enabled (e : Eng) : MicroOp → Bool
  | .wIdle => !e.busy && !e.stp
  | .wTx => e.txrdy
  | .wStt => !e.stt
  | .wStp => !e.stp
  | .wRx => e.rxrdy
  | .init => true
  | .startW => true
  | .startR => true
  | .tx _ => true
  | .stop => true
  | .nackStop => true
  | .rx _ => true
  | .latchSa _ => true

/-- `STATUS.HALT` and the output line `fault`: `FAULT ≠ 0` (R21, R298). -/
def State.halt (s : State) : Bool := s.fault != 0

/-- STATUS as it reads (R21). -/
def State.status (s : State) : Word :=
  (BitVec.ofBool s.halt).setWidth 32 <<< 2 ||| (BitVec.ofBool s.tickOvr).setWidth 32 <<< 1
    ||| (BitVec.ofBool s.tickPend).setWidth 32

/-- BCTL as it reads (R25). -/
def State.bctl (s : State) : Word :=
  (BitVec.ofBool s.initDone).setWidth 32 <<< 9 ||| (BitVec.ofBool s.saValid).setWidth 32 <<< 8 ||| s.sa.setWidth 32

/-- The two bits of CLS.PHASE (R29). -/
def phaseBits : Phase → BitVec 2
  | .accelerating => 0
  | .cruisingForward => 1
  | .reversing => 2
  | .stopped => 3

/-- CLS as it reads (R29). -/
def State.cls (s : State) : Word :=
  s.dwell.setWidth 32 <<< 16 ||| s.ramp.setWidth 32 <<< 8 ||| (BitVec.ofBool s.run).setWidth 32 <<< 2
    ||| (phaseBits s.phase).setWidth 32

end Sys2Proof.Machine
end

