-- ==== Sys2Proof/Machine/Operands.lean ====
section
/-! DEFINITION. Operand forms and the arithmetic of the commands: the 12-bit sample (spec/41_sensor_sfu.md R192), the
noise mask (R196), truncating division (spec/00_scope.md R9), the integrator's step function (spec/42_miu.md R223),
the bytes WRBS sends (spec/40_btc_commands.md R164), the drive axis (R194), the speed table (R7). -/

namespace Sys2Proof.Machine

/-- `dec12(lo, hi)`: right-justified 12 bits, the high byte's upper four bits ignored (R192). -/
def dec12 (lo hi : Byte) : Int :=
  let raw : Nat := ((hi &&& 0x0F#8).toNat <<< 8) ||| lo.toNat
  if 2048 ≤ raw then (raw : Int) - 4096 else (raw : Int)

/-- `sext_32(dec12(lo, hi))` (R8, R191, R192). -/
def decodeSample (lo hi : Byte) : Word := BitVec.ofInt 32 (dec12 lo hi)

/-- `zext_32(b)` (R8). -/
def zext32 (b : Byte) : Word := b.setWidth 32

/-- `tdiv(a, b)`: the quotient truncated toward zero (R9), for `b ≥ 1`. -/
def tdiv (a : Int) (b : Nat) : Int := a.sign * ((a.natAbs / b : Nat) : Int)

/-- The noise-floor mask: the low `MASK_BITS` bits of the pattern cleared (R196). -/
def noiseMask (bits : Nat) (v : Word) : Word := v &&& (0xFFFFFFFF#32 <<< bits)

/-- `step(a, p) = p + tdiv(a · DT, SCALE)`, exact (R223). -/
def integrate (c : Config) (rate prev : Word) : Int := prev.toInt + tdiv (rate.toInt * (c.dt : Int)) c.scale

/-- The sample component SACC sums, by `DRIVE_AXIS` (R194). -/
def driveSample (s : State) : Word :=
  match s.cfg.driveAxis with
  | .x => s.sx
  | .y => s.sy
  | .z => s.sz

/-- What WRBS sends: `TXB[n−1]` first, `TXB[0]` last (R164, R66 (a)), as TXB stands at acceptance (R97). -/
def txBytes (txb : Vector Byte bufferSize) (n : Nat) : List Byte :=
  (List.range n).reverse.map (fun i => txb[Fin.ofNat bufferSize i])

/-- `CMD_SPEED[k]`, `k` from 1 (R7). -/
def speedCommand (c : Config) (k : Nat) : Option DriveCommand :=
  if k = 0 then none else c.params.cmdSpeed[k - 1]?

/-- The code of a tick-program position (R36, R245). -/
def TickPos.code : TickPos → Nat
  | .wait => 0
  | .sclr => 1
  | .read => 2
  | .acc => 3
  | .avg => 4
  | .updv => 5
  | .updd => 6
  | .phev => 7
  | .emit => 8

end Sys2Proof.Machine
end

