-- ==== Sys2Proof/Machine/Btc.lean ====
section
/-! DEFINITION. The Bus Transaction Controller (spec/40_btc_commands.md): the expansion of each command into its list
of micro-operations (R142), the micro-operations (R143 to R158), and the meanings of the seven commands (R160 to R167). -/

namespace Sys2Proof.Machine

/-! ### The lists (R142) -/

/-- The list of a write transaction that sends `bytes` in order (R142: WRB, WRBS, WRR). -/
def writeList (bytes : List Byte) : List MicroOp :=
  [.wIdle, .startW] ++ bytes.flatMap (fun b => [.wTx, .tx b]) ++ [.wTx, .stop, .wStp]

/-- The part of a read transaction up to the repeated START (R142: RDR, RDRS). -/
def readHead (reg : Byte) : List MicroOp :=
  [.wIdle, .startW, .wTx, .tx reg, .wTx, .startR, .wStt]

/-- `G(i)`: one iteration of a burst of `count ≥ 2` bytes; `NACKSTOP` stands in the second-to-last (R142, R167). -/
def burstStep (count i : Nat) : List MicroOp :=
  if i + 2 = count then [.wRx, .nackStop, .rx (Fin.ofNat bufferSize i)] else [.wRx, .rx (Fin.ofNat bufferSize i)]

/-- The list of RDR, and of RDRS with count 1 (R142, R166). -/
def readOneList (reg : Byte) : List MicroOp :=
  readHead reg ++ [.nackStop, .wRx, .rx (Fin.ofNat bufferSize 0)]

/-- The list of RDRS (R142, R167). -/
def readList (firstAddr : Byte) (count : Nat) : List MicroOp :=
  if count ≤ 1 then readOneList firstAddr
  else readHead firstAddr ++ (List.range count).flatMap (burstStep count)

/-- `W_IDLE` first once INIT_DONE = 1, nothing before it otherwise (R142: INITM, SETSA). -/
def afterIdle (initDone : Bool) (op : MicroOp) : List MicroOp := if initDone then [.wIdle, op] else [op]

/-! ### The micro-operations -/

/-- The engine after the `INIT` action: no transaction open, the five flags 0 (R72, R150). -/
def Eng.initialised (e : Eng) : Eng :=
  { e with busy := false, stt := false, stp := false, txrdy := false, rxrdy := false }

/-- What an action writes, with its entry of ACT; a wait writes nothing (R141, R143, R150 to R157). -/
def MicroOp.effect : MicroOp → State → State
  | .wIdle, s => s
  | .wTx, s => s
  | .wStt, s => s
  | .wStp, s => s
  | .wRx, s => s
  | .init, s => emitAct .init { s with eng := s.eng.initialised, mode := .idle, initDone := true }
  | .startW, s => emitAct .startW { s with eng := { s.eng with sa := s.sa, tr := true, stt := true } }
  | .startR, s => emitAct .startR { s with eng := { s.eng with sa := s.sa, tr := false, stt := true } }
  | .tx b, s => emitAct (.tx b) { s with eng := { s.eng with txbuf := b, txrdy := false } }
  | .stop, s => emitAct .stop { s with eng := { s.eng with stp := true } }
  | .nackStop, s => emitAct .nackStop { s with eng := { s.eng with stp := true } }
  | .rx k, s =>
    emitAct (.rx k s.eng.rxbuf)
      { s with rxb := s.rxb.set k s.eng.rxbuf, res := zext32 s.eng.rxbuf, eng := { s.eng with rxrdy := false } }
  | .latchSa a, s => { s with sa := a, saValid := true }

/-- What the last micro-operation of RDXYZ also does (R191), on the bytes RXB then holds. -/
def latchSample (s : State) : State :=
  { s with
    sx := decodeSample s.rxb[0] s.rxb[1]
    sy := decodeSample s.rxb[2] s.rxb[3]
    sz := decodeSample s.rxb[4] s.rxb[5]
    sst := s.rxb[6]
    res := zext32 s.rxb[6] }

/-- Completion (R158). -/
def completeList (s : State) : State := { s with ulist := [], btcStep := 0, btcXyz := false }

/-- After a micro-operation: on to the next (R30, R143, R144), or completion after the last (R158, R191). -/
def advance (s : State) : State :=
  if s.btcStep < s.ulist.length then { s with btcStep := s.btcStep + 1 }
  else completeList (if s.btcXyz then latchSample s else s)

/-- The micro-operation the BTC is at (R30). Past the end of the list there is none (log 17). -/
def State.currentOp (s : State) : Option MicroOp :=
  if s.btcStep = 0 then none else s.ulist[s.btcStep - 1]?

/-- The BTC has an enabled step (R143, R144). -/
def State.btcEnabled (s : State) : Bool :=
  match s.currentOp with
  | none => false
  | some u => u.enabled s.eng

/-- One step of the BTC. A wait whose condition does not hold leaves everything as it is (R143; log 3). -/
def microStep (s : State) : State :=
  match s.currentOp with
  | none => s
  | some u => if u.enabled s.eng then advance (u.effect s) else s

/-! ### The commands -/

/-- INITM (R160). -/
def execInitm (s : State) : Host.Outcome State Fault Refusal :=
  .next (accept (encode .initm) (loadList (afterIdle s.initDone .init)) s)

/-- SETSA (R161). -/
def execSetsa (addr : BusAddr) (s : State) : Host.Outcome State Fault Refusal :=
  .next (accept (encode (.setsa addr)) (loadList (afterIdle s.initDone (.latchSa addr))) s)

/-- WRB (R163). -/
def execWrb (data : Byte) (s : State) : Host.Outcome State Fault Refusal :=
  .next (accept (encode (.wrb data)) (transaction (encode (.wrb data)) (loadList (writeList [data]))) s)

/-- WRBS (R164); BADLEN outside 1..TXB_DEPTH (R283). -/
def execWrbs (length : Byte) (s : State) : Host.Outcome State Fault Refusal :=
  let cw := encode (.wrbs length)
  .next (accept cw (checkLength length s.cfg.txbDepth cw
    (transaction cw (loadList (writeList (txBytes s.txb length.toNat))))) s)

/-- WRR: the register address goes first (R165). -/
def execWrr (reg data : Byte) (s : State) : Host.Outcome State Fault Refusal :=
  .next (accept (encode (.wrr reg data)) (transaction (encode (.wrr reg data)) (loadList (writeList [reg, data]))) s)

/-- RDR (R166). -/
def execRdr (reg : Byte) (s : State) : Host.Outcome State Fault Refusal :=
  .next (accept (encode (.rdr reg)) (transaction (encode (.rdr reg)) (loadList (readOneList reg))) s)

/-- RDRS (R167); BADLEN outside 1..RXB_DEPTH (R283). -/
def execRdrs (firstAddr count : Byte) (s : State) : Host.Outcome State Fault Refusal :=
  let cw := encode (.rdrs firstAddr count)
  .next (accept cw (checkLength count s.cfg.rxbDepth cw
    (transaction cw (loadList (readList firstAddr count.toNat)))) s)

end Sys2Proof.Machine
end

