-- ==== Sys2Proof/Machine/Clf.lean ====
section
/-! DEFINITION. The control-loop FSM (spec/43_clf.md): the command RUN (R241), the phase evaluation and the end of the
dwell (R248 to R253), the emission of drive commands (R255). -/

namespace Sys2Proof.Machine

/-- The operation of RUN (R241). -/
def startCourse (s : State) : State :=
  { s with
    run := true
    phase := .accelerating
    ramp := 0
    dwell := 0
    vel := 0
    dist := 0
    tickPend := false }

/-- RUN (R241). -/
def execRun (s : State) : Host.Outcome State Fault Refusal :=
  .next (accept (encode .run) startCourse s)

/-- `dwell_end()` (R251). -/
def dwellEnd (s : State) : State :=
  { s with emitq := s.emitq ++ [s.cfg.params.cmdReverse], vel := 0, phase := .reversing }

/-- PHEV in Accelerating (R249): one speed command, and CruisingForward after the last. -/
def phevAccelerating (s : State) : Host.Outcome State Fault Refusal :=
  match speedCommand s.cfg (s.ramp + 1).toNat with
  | none => .fault .noSpeedCommand
  | some c =>
    .next { s with
      ramp := s.ramp + 1
      emitq := [c]
      phase := if (s.ramp + 1).toNat = s.cfg.nRamp then .cruisingForward else s.phase }

/-- PHEV in CruisingForward (R250). -/
def phevCruising (s : State) : State :=
  if s.cfg.params.distTarget.toInt ≤ s.dist.toInt then
    let stopped := { s with emitq := [s.cfg.params.cmdStop] }
    if s.cfg.params.dwellTicks = 0 then dwellEnd stopped
    else { stopped with dwell := s.cfg.params.dwellTicks }
  else s

/-- PHEV in Reversing (R253). -/
def phevReversing (s : State) : State :=
  if s.dist.toInt ≤ s.cfg.distStart.toInt then { s with emitq := [s.cfg.params.cmdStop], phase := .stopped }
  else s

/-- The phase evaluation PHEV: the rule of the phase at entry, once (R248). In Stopped it cannot occur (R254), and
changes nothing (log 18). -/
def phev (s : State) : Host.Outcome State Fault Refusal :=
  match s.phase with
  | .accelerating => phevAccelerating s
  | .cruisingForward => .next (phevCruising s)
  | .reversing => .next (phevReversing s)
  | .stopped => .next s

/-- One T_EMIT step when OTX is not busy (R255, R258, R259). -/
def emitNext (s : State) : State :=
  match s.emitq with
  | [] => { s with tpc := .wait }
  | c :: rest =>
    { s with emitq := rest, otx := { data0 := c.b0, data1 := c.b1, busy := true }, out := s.out ++ [c] }

end Sys2Proof.Machine
end

