-- ==== Sys2Proof/Machine/Miu.lean ====
section
/-! DEFINITION. The Motion Integrator Unit (spec/42_miu.md R220 to R225). -/

namespace Sys2Proof.Machine

/-- The operation of UPDV (R221): IOVF and VEL unchanged when the exact result does not fit. -/
def updateVelocity (s : State) : State :=
  if fits32 (integrate s.cfg s.acc s.vel) then { s with vel := BitVec.ofInt 32 (integrate s.cfg s.acc s.vel) }
  else raise .iovf (encode .updv) s

/-- The operation of UPDD (R222): it uses VEL as it is; IOVF and DIST unchanged when the result does not fit. -/
def updateDistance (s : State) : State :=
  if fits32 (integrate s.cfg s.vel s.dist) then { s with dist := BitVec.ofInt 32 (integrate s.cfg s.vel s.dist) }
  else raise .iovf (encode .updd) s

/-- UPDV (R221). -/
def execUpdv (s : State) : Host.Outcome State Fault Refusal :=
  .next (accept (encode .updv) updateVelocity s)

/-- UPDD (R222). -/
def execUpdd (s : State) : Host.Outcome State Fault Refusal :=
  .next (accept (encode .updd) updateDistance s)

end Sys2Proof.Machine
end

