-- ==== Sys2Proof/Machine/Sfu.lean ====
section
/-! DEFINITION. The sensor read sequence and the Sample Filter Unit (spec/41_sensor_sfu.md R190 to R196). -/

namespace Sys2Proof.Machine

/-- RDXYZ: the list of `RDRS REG_DATA0, 7`; the last micro-operation also decodes (R191). -/
def execRdxyz (s : State) : Host.Outcome State Fault Refusal :=
  .next (accept (encode .rdxyz)
    (transaction (encode .rdxyz) (loadSampleRead (readList s.cfg.params.regData0 7))) s)

/-- DEC12: `RES <- sext_32(dec12(lo, hi))` (R192). -/
def execDec12 (low high : Byte) (s : State) : Host.Outcome State Fault Refusal :=
  .next (accept (encode (.dec12 low high)) (fun s => { s with res := decodeSample low high }) s)

/-- SCLR: `SUM <- 0; SCNT <- 0` (R193). -/
def execSclr (s : State) : Host.Outcome State Fault Refusal :=
  .next (accept (encode .sclr) (fun s => { s with sum := 0, scnt := 0 }) s)

/-- The operation of SACC (R194): BADSEQ when N_AVG samples are already summed. -/
def accumulate (s : State) : State :=
  if s.cfg.nAvg ≤ s.scnt.toNat then raise .badseq (encode .sacc) s
  else { s with sum := s.sum + driveSample s, scnt := s.scnt + 1 }

/-- SACC (R194). -/
def execSacc (s : State) : Host.Outcome State Fault Refusal :=
  .next (accept (encode .sacc) accumulate s)

/-- The average SAVG delivers: divided, then masked (R195, R196). -/
def average (c : Config) (sum : Word) : Word := noiseMask c.maskBits (BitVec.ofInt 32 (tdiv sum.toInt c.nAvg))

/-- The operation of SAVG (R195): BADSEQ unless exactly N_AVG samples are summed. -/
def deliverAverage (s : State) : State :=
  if s.scnt.toNat ≠ s.cfg.nAvg then raise .badseq (encode .savg) s
  else { s with acc := average s.cfg s.sum }

/-- SAVG (R195). -/
def execSavg (s : State) : Host.Outcome State Fault Refusal :=
  .next (accept (encode .savg) deliverAverage s)

end Sys2Proof.Machine
end

