-- ==== Sys2Proof/Machine/Dispatch.lean ====
section
/-! DEFINITION. The meaning of each command, presented at the step that accepts it (spec/30_encoding.md R112). -/

namespace Sys2Proof.Machine

def exec (i : Instr) (s : State) : Host.Outcome State Fault Refusal :=
  match i with
  | .initm => Sys2Proof.Machine.execInitm s
  | .setsa addr => Sys2Proof.Machine.execSetsa addr s
  | .wrb data => Sys2Proof.Machine.execWrb data s
  | .wrbs length => Sys2Proof.Machine.execWrbs length s
  | .wrr reg data => Sys2Proof.Machine.execWrr reg data s
  | .rdr reg => Sys2Proof.Machine.execRdr reg s
  | .rdrs firstAddr count => Sys2Proof.Machine.execRdrs firstAddr count s
  | .rdxyz => Sys2Proof.Machine.execRdxyz s
  | .dec12 low high => Sys2Proof.Machine.execDec12 low high s
  | .sclr => Sys2Proof.Machine.execSclr s
  | .sacc => Sys2Proof.Machine.execSacc s
  | .savg => Sys2Proof.Machine.execSavg s
  | .updv => Sys2Proof.Machine.execUpdv s
  | .updd => Sys2Proof.Machine.execUpdd s
  | .run => Sys2Proof.Machine.execRun s

end Sys2Proof.Machine
end

