-- ==== Sys2Proof/Machine/HostPort.lean ====
section
/-! DEFINITION. Presenting a command word (spec/30_encoding.md R112) and the host port: the register map
(spec/10_state.md R20), HostRead and HostWrite (R44 to R46), and their refusals (spec/60_exceptions.md R288, R289). -/

namespace Sys2Proof.Machine

/-- A command word is presented (R112): a command's meaning makes the acceptance tests itself; a word that is no
command passes the same tests and raises ILLCMD (R282). -/
def acceptWord (cw : Word) (s : State) : Host.Outcome State Fault Refusal :=
  match decode cw with
  | .ok i => exec i s
  | .error _ => .next (accept cw (raise .illcmd cw) s)

/-- The host-visible registers (R20). -/
inductive HostReg where
  | cmd
  | status
  | fault
  | finfo
  | res
  | bctl
  | acc
  | vel
  | dist
  | sx
  | sy
  | sz
  | sst
  | sum
  | scnt
  | cls
  | txb (k : Fin mappedBytes)
  | rxb (k : Fin mappedBytes)
  deriving DecidableEq, Repr

/-- The register at an index `i` of R20's table, `i` below 48. -/
def hostRegAt (i : Nat) : HostReg :=
  match i with
  | 0 => .cmd
  | 1 => .status
  | 2 => .fault
  | 3 => .finfo
  | 4 => .res
  | 5 => .bctl
  | 6 => .acc
  | 7 => .vel
  | 8 => .dist
  | 9 => .sx
  | 10 => .sy
  | 11 => .sz
  | 12 => .sst
  | 13 => .sum
  | 14 => .scnt
  | 15 => .cls
  | i => if i < 32 then .txb (Fin.ofNat mappedBytes (i - 16)) else .rxb (Fin.ofNat mappedBytes (i - 32))

/-- The register at a byte offset; none where the offset is not a multiple of 4 or is above 0xBC (R20, R288). -/
def hostReg (off : BitVec 8) : Option HostReg :=
  if off.toNat % 4 ≠ 0 ∨ 0xBC < off.toNat then none else some (hostRegAt (off.toNat / 4))

/-- A register as the host reads it: unnamed bits 0, CMD 0 (R20, R45). -/
def readReg (s : State) : HostReg → Word
  | .cmd => 0
  | .status => s.status
  | .fault => s.fault.setWidth 32
  | .finfo => s.finfo
  | .res => s.res
  | .bctl => s.bctl
  | .acc => s.acc
  | .vel => s.vel
  | .dist => s.dist
  | .sx => s.sx
  | .sy => s.sy
  | .sz => s.sz
  | .sst => zext32 s.sst
  | .sum => s.sum
  | .scnt => s.scnt.setWidth 32
  | .cls => s.cls
  | .txb k => zext32 s.txb[k.val]
  | .rxb k => zext32 s.rxb[k.val]

/-- FINFO for a refused access: `0xFF000000 | we << 8 | off` (R23, R288, R289). -/
def accessInfo (we : Bool) (off : BitVec 8) : Word :=
  0xFF000000#32 ||| (BitVec.ofBool we).setWidth 32 <<< 8 ||| off.setWidth 32

/-- A store to an RW* register: CLFOWN in AUTO mode, else the store (R40, R46, R289). -/
def storeReg (off : BitVec 8) (store : State → State) (s : State) : State :=
  if s.run then raise .clfown (accessInfo true off) s else store s

/-- HostRead (R45): the value on `h_rdata`. An illegal offset raises HACC, or does nothing once FAULT ≠ 0, and reads
as 0 (R281 (c), R288). -/
def hostRead (off : BitVec 8) (s : State) : State :=
  match hostReg off with
  | some r => { s with hrdata := readReg s r }
  | none => { (if s.fault ≠ 0 then s else raise .hacc (accessInfo false off) s) with hrdata := 0 }

/-- HostWrite (R46): discarded once FAULT ≠ 0; HACC for an illegal offset or a read-only register (R288); a write to
CMD presents the word; TXB takes the low byte. -/
def hostWrite (off : BitVec 8) (v : Word) (s : State) : Host.Outcome State Fault Refusal :=
  if s.fault ≠ 0 then .next s
  else match hostReg off with
    | some .cmd => acceptWord v s
    | some .acc => .next (storeReg off (fun s => { s with acc := v }) s)
    | some .vel => .next (storeReg off (fun s => { s with vel := v }) s)
    | some .dist => .next (storeReg off (fun s => { s with dist := v }) s)
    | some (.txb k) => .next (storeReg off (fun s => { s with txb := s.txb.set k.val (v.extractLsb' 0 8) }) s)
    | _ => .next (raise .hacc (accessInfo true off) s)

/-- One host access (R44). -/
def hostAccess (r : HostReq) (s : State) : Host.Outcome State Fault Refusal :=
  match r with
  | .read off => .next (hostRead off s)
  | .write off v => hostWrite off v s

/-- The pending request is served if SBMC is idle, and held otherwise (R31, R44). -/
def hostServe (s : State) : Host.Outcome State Fault Refusal :=
  match s.hostq with
  | [] => .next s
  | r :: rest => if s.idle then hostAccess r { s with hostq := rest } else .next s

end Sys2Proof.Machine
end

