-- ==== Sys2Proof/Machine/Tick.lean ====
section
/-! DEFINITION. The tick: TickArrive (spec/60_exceptions.md R291), T_START and the tick program (spec/43_clf.md R244 to
R247), and one step of the SBMC sequencer (spec/00_scope.md R11). -/

namespace Sys2Proof.Machine

/-- `TickArrive` (R291). -/
def tickArrive (s : State) : State :=
  if s.run = false ∨ s.phase = .stopped ∨ s.fault ≠ 0 then s
  else if s.tickPend then { s with tickOvr := true }
  else { s with tickPend := true }

/-- The condition of T_START (R244). -/
def State.tickStartEnabled (s : State) : Bool :=
  s.run && s.fault == 0 && s.phase != .stopped && s.tickPend && s.idle

/-- What T_START does (R244): a dwell tick goes to T_EMIT, any other to T_SCLR. -/
def tickStart (s : State) : State :=
  let t := { s with tickPend := false }
  if s.dwell = 0 then { t with tpc := .sclr }
  else
    let d := { t with dwell := s.dwell - 1 }
    { (if s.dwell - 1 = 0 then dwellEnd d else d) with tpc := .emit }

/-- The tick program presents a command word; if it is not refused, `k` follows in the same step. A refusal has
already set the position to 0 (R245, R247, R281). -/
def present (cw : Word) (k : State → State) (s : State) : Host.Outcome State Fault Refusal :=
  match acceptWord cw s with
  | .next t => .next (if t.fault = 0 then k t else t)
  | .fault r => .fault r
  | .refused r => .refused r

/-- T_ACC after SACC: one sample read fewer to do; back to T_READ while any is left (R245). -/
def afterSacc (s : State) : State :=
  { s with srep := s.srep - 1, tpc := if 0 < s.srep - 1 then .read else .avg }

/-- The row of the tick program at a position (R245); T_EMIT waits for OTX (R255, R296). -/
def tickRow (s : State) : Host.Outcome State Fault Refusal :=
  match s.tpc with
  | .wait => .next (if s.tickStartEnabled then tickStart s else s)
  | .sclr => present 0x12000000 (fun t => { t with srep := t.cfg.nAvg, tpc := .read }) s
  | .read => present 0x10000000 (fun t => { t with tpc := .acc }) s
  | .acc => present 0x13000000 afterSacc s
  | .avg => present 0x14000000 (fun t => { t with tpc := .updv }) s
  | .updv => present 0x20000000 (fun t => { t with tpc := .updd }) s
  | .updd => present 0x21000000 (fun t => { t with tpc := .phev }) s
  | .phev =>
    match phev s with
    | .next t => .next { t with tpc := .emit }
    | .fault r => .fault r
    | .refused r => .refused r
  | .emit => .next (if s.otx.busy then s else emitNext s)

/-- One step of the SBMC sequencer other than a host access: the command in progress first (R246); no tick-program
step while FAULT ≠ 0 (R245, R281). -/
def sbmcStep (s : State) : Host.Outcome State Fault Refusal :=
  if s.btcStep ≠ 0 then .next (microStep s)
  else if s.fault ≠ 0 then .next s
  else tickRow s

/-- The SBMC sequencer has an enabled step other than a host access. -/
def State.sbmcEnabled (s : State) : Bool :=
  if s.btcStep ≠ 0 then s.btcEnabled
  else if s.fault ≠ 0 then false
  else match s.tpc with
    | .wait => s.tickStartEnabled
    | .emit => !s.otx.busy
    | _ => true

end Sys2Proof.Machine
end

