-- ==== Sys2Proof/Machine/Agents.lean ====
section
/-! DEFINITION. The remaining agents (spec/00_scope.md R3, R11): OTX, the environment of the slave, the unconstrained
engine (spec/20_memory.md R84), the reset event (spec/70_reset_and_hazards.md R310, R311), and the schedule. -/

namespace Sys2Proof.Machine

/-- OTX has transmitted: BUSY from 1 to 0, nothing else (R260). -/
def otxDone (s : State) : State := { s with otx := { s.otx with busy := false } }

/-- The environment changes one slave register (R93). -/
def slaveSets (a v : Byte) (s : State) : State :=
  { s with slv := { s.slv with sreg := s.slv.sreg.write a.toNat v } }

/-- The unconstrained environment puts any values in the engine fields and any events on the wire (R84). -/
def engineSets (e : Eng) (w : List WireEvent) (s : State) : State := emitWire w { s with eng := e }

/-- The reset event (R310): every register, sequencer field and trace at its reset value; engine and transport fields
free again (R311 (a), (b)); the slave as it was (R311 (c)); the host and the other agents go on. -/
def resetEvent (s : State) : State :=
  { State.reset with
    cfg := s.cfg
    slv := s.slv
    eng := Eng.afterReset s.draws
    otx := Otx.afterReset s.draws
    draws := s.draws + 1
    hostq := s.hostq
    sched := s.sched }

/-- One step of one agent (R11). -/
def perform (ev : Event) (s : State) : Host.Outcome State Fault Refusal :=
  match ev with
  | .host => hostServe s
  | .sbmc => sbmcStep s
  | .engine => .next (engineStep s)
  | .engineSets e w => .next (engineSets e w s)
  | .slaveSets a v => .next (slaveSets a v s)
  | .otx => .next (otxDone s)
  | .tick => .next (tickArrive s)
  | .rst => .next (resetEvent s)

/-- The BTC-first schedule (R317, 95_test_vectors.md section 0), used when `sched` names no agent: the SBMC sequencer if
it has an enabled step, a host access being one; else the engine; else OTX (log 2). -/
def btcFirst (s : State) : Event :=
  if s.sbmcEnabled then .sbmc
  else if s.idle && !s.hostq.isEmpty then .host
  else if s.engineEnabled then .engine
  else .otx

/-- The event the next step performs: the first of `sched`, else what the BTC-first schedule chooses. -/
def State.nextEvent (s : State) : Event :=
  match s.sched with
  | ev :: _ => ev
  | [] => btcFirst s

/-- `s` with the event it performs next taken out of the schedule. -/
def State.eventTaken (s : State) : State := { s with sched := s.sched.tail }

end Sys2Proof.Machine
end

