-- ==== Sys2Proof/Machine/Step.lean ====
section
/-! DEFINITION. One step of the model: the next agent named by the schedule takes its step (spec/00_scope.md R11). -/

namespace Sys2Proof.Machine

/-- One step: the first event of `sched` is taken out and performed; where `sched` names none, the BTC-first schedule
chooses (log 1, log 2). -/
def step (s : State) : Host.Outcome State Fault Refusal := perform s.nextEvent s.eventTaken

/-- `s` with the host about to write the word to CMD, as the next event: there is no program memory, a command word is
presented by a host write (R112). Log 12 says how a program comes to run. -/
def State.withFetchWord (s : State) (nbits w : Nat) : State :=
  { s with hostq := .write 0x00 (tableWord nbits w) :: s.hostq, sched := .host :: s.sched }

end Sys2Proof.Machine
end

