-- ==== Sys2Proof/Safety.lean ====
section
/-! DEFINITION. What claims are stated with: when a command is accepted, the invariants of the machine, the engine
contract (spec/20_memory.md R73 to R82), the premise NACK1 (spec/70_reset_and_hazards.md R317), and the drive commands the course has decided (spec/43_clf.md R261). -/

namespace Sys2Proof.Machine

/-! ### Acceptance -/

/-- A command presented now reaches its own checks (R112): no command in progress, no fault, and not a host command in
AUTO mode. -/
def State.accepting (s : State) : Prop :=
  s.btcStep = 0 ∧ s.fault = 0 ∧ (s.tpc = .wait → s.run = false)

/-- As `State.accepting`, for a transaction command: the bus is initialised and a slave address is set (R159). -/
def State.acceptingTransaction (s : State) : Prop :=
  s.accepting ∧ s.initDone = true ∧ s.saValid = true

/-- A transaction command whose length or count, where it has one, is in 1..TXB_DEPTH or 1..RXB_DEPTH of the build (R159,
R164, R167, R191, R283). -/
def isLegalTransaction (c : Config) : Instr → Bool
  | .initm => false
  | .setsa _ => false
  | .wrb _ => true
  | .wrbs n => decide (1 ≤ n.toNat) && decide (n.toNat ≤ c.txbDepth)
  | .wrr _ _ => true
  | .rdr _ => true
  | .rdrs _ n => decide (1 ≤ n.toNat) && decide (n.toNat ≤ c.rxbDepth)
  | .rdxyz => true
  | .dec12 _ _ => false
  | .sclr => false
  | .sacc => false
  | .savg => false
  | .updv => false
  | .updd => false
  | .run => false

/-- What a refusal leaves of a state with FAULT = 0: the fault's bit, the information, the tick program abandoned, and
everything else as it was (R281). -/
def State.refusedWith (s : State) (bit : BitVec 8) (info : Word) : State :=
  { s with fault := bit, finfo := info, tpc := .wait, srep := 0, emitq := [] }

/-! ### The machine's invariant -/

/-- At most one FAULT bit, and the sequencers at rest once one is set (R281). -/
structure FaultInv (s : State) : Prop where
  oneBit : s.fault = 0 ∨ ∃ c : FaultCode, s.fault = c.bit
  btcAtRest : s.fault ≠ 0 → s.btcStep = 0
  clfAtRest : s.fault ≠ 0 → s.tpc = .wait

/-- BTC.STEP is 0 with no list, or a position in the list (R30). -/
structure BtcInv (s : State) : Prop where
  inList : s.btcStep ≤ s.ulist.length
  idleIff : s.btcStep = 0 ↔ s.ulist = []
  idleXyz : s.btcStep = 0 → s.btcXyz = false

/-- A decoded sample: −2048..2047 (R27). -/
def sampleRange (w : Word) : Prop := -2048 ≤ w.toInt ∧ w.toInt ≤ 2047

/-- The sample registers hold samples, and SUM is a sum of SCNT of them, SCNT at most N_AVG (R27, R28). -/
structure SampleInv (s : State) : Prop where
  sx : sampleRange s.sx
  sy : sampleRange s.sy
  sz : sampleRange s.sz
  count : s.scnt.toNat ≤ s.cfg.nAvg
  sumLow : -2048 * (s.scnt.toNat : Int) ≤ s.sum.toInt
  sumHigh : s.sum.toInt ≤ 2047 * (s.scnt.toNat : Int)

/-- The positions of a sampled tick: T_SCLR to T_PHEV (R245). -/
def TickPos.sampling : TickPos → Bool
  | .wait => false
  | .emit => false
  | .sclr => true
  | .read => true
  | .acc => true
  | .avg => true
  | .updv => true
  | .updd => true
  | .phev => true

/-- What holds at each position of the tick program (R36, R240, R245, R246). -/
structure TickInv (s : State) : Prop where
  running : s.tpc ≠ .wait → s.run = true
  btcOnlyAtAcc : s.tpc ≠ .wait → s.tpc ≠ .acc → s.btcStep = 0
  queueOnlyAtEmit : s.tpc ≠ .emit → s.emitq = []
  queueShort : s.emitq.length ≤ 2
  readsLeft : s.tpc = .read ∨ s.tpc = .acc → 1 ≤ s.srep ∧ s.scnt.toNat + s.srep = s.cfg.nAvg
  noReadsLeft : s.tpc ≠ .read → s.tpc ≠ .acc → s.srep = 0
  allRead : s.tpc = .avg → s.scnt.toNat = s.cfg.nAvg
  samplingPhase : s.tpc.sampling = true → s.phase ≠ .stopped ∧ s.dwell = 0

/-- What holds of the course state (R29, R241, R249 to R254). -/
structure CourseInv (s : State) : Prop where
  hostMode : s.run = false → s.phase = .accelerating ∧ s.ramp = 0 ∧ s.dwell = 0 ∧ s.tickPend = false
  ramping : s.phase = .accelerating → s.ramp.toNat < s.cfg.nRamp
  ramped : s.phase ≠ .accelerating → s.ramp.toNat = s.cfg.nRamp
  dwelling : s.dwell ≠ 0 → s.phase = .cruisingForward

/-- The invariant of a machine of a well-formed build. -/
structure MachineInv (s : State) : Prop where
  build : s.cfg.wellFormed = true
  fault : FaultInv s
  btc : BtcInv s
  samples : SampleInv s
  tick : TickInv s
  course : CourseInv s

/-! ### Drive commands -/

/-- The drive commands the course has decided since RUN, as its phase, ramp and dwell say (R249 to R253). -/
def decidedCommands (s : State) : List DriveCommand :=
  let p := s.cfg.params
  let ramp := p.cmdSpeed.take s.ramp.toNat
  match s.phase with
  | .accelerating => ramp
  | .cruisingForward => ramp ++ (if s.dwell = 0 then [] else [p.cmdStop])
  | .reversing => ramp ++ [p.cmdStop, p.cmdReverse]
  | .stopped => ramp ++ [p.cmdStop, p.cmdReverse, p.cmdStop]

/-- Handed over and queued together, the drive commands are exactly the decided ones; none before RUN (R255, R261). -/
def OutInv (s : State) : Prop := s.out ++ s.emitq = if s.run then decidedCommands s else []

/-- The whole course's drive commands (R261). -/
def courseGrammar (c : Config) : List DriveCommand :=
  c.params.cmdSpeed ++ [c.params.cmdStop, c.params.cmdReverse, c.params.cmdStop]

/-! ### The action trace -/

/-- The micro-operation an entry of ACT records. -/
def Action.op : Action → MicroOp
  | .init => .init
  | .startW => .startW
  | .startR => .startR
  | .tx b => .tx b
  | .stop => .stop
  | .nackStop => .nackStop
  | .rx k _ => .rx k

/-- The micro-operations that append to ACT: every action but LATCH_SA (R141). -/
def MicroOp.traced : MicroOp → Bool
  | .wIdle => false
  | .wTx => false
  | .wStt => false
  | .wStp => false
  | .wRx => false
  | .latchSa _ => false
  | .init => true
  | .startW => true
  | .startR => true
  | .tx _ => true
  | .stop => true
  | .nackStop => true
  | .rx _ => true

/-- A reception. -/
def MicroOp.isRx : MicroOp → Bool
  | .rx _ => true
  | _ => false

/-- A transmission. -/
def MicroOp.isTx : MicroOp → Bool
  | .tx _ => true
  | _ => false

/-- ACT has grown from `before` by exactly the actions of the first `n` micro-operations of `l`, in order. -/
def ActGrownBy (before : List Action) (l : List MicroOp) (n : Nat) (s : State) : Prop :=
  ∃ acts, s.act = before ++ acts ∧ acts.map Action.op = (l.take n).filter MicroOp.traced

/-! ### The engine contract -/

/-- How far the engine is with a transaction, the history that R72 to R82 speak of. No field of State: a claim about an
engine carries it along, from `uninit`, with every INIT action making it `closed` (R72); `RefMode.link` gives it for the
reference engine (log 27). -/
inductive Link where
  /-- Before the first INIT: nothing is specified (R70). -/
  | uninit
  /-- No transaction is open. -/
  | closed
  /-- `S` or `Sr` is on the bus, its address byte is not. -/
  | started
  /-- The address byte is on the bus, its answer is not. -/
  | addressed
  /-- Open in transmit mode, every `DW` sent so far acknowledged. -/
  | transmit
  /-- Open in transmit mode, a `DW` on the bus and its answer not. -/
  | sent
  /-- Open in receive mode. -/
  | receive
  /-- The slave answered `NACK_s`, or did not answer (R81). -/
  | dead
  deriving DecidableEq, Repr

/-- The moves of an admissible engine: from its fields `e` to `e'`, with the events `w` on the wire. Every move leaves the
fields it does not name (R73), and there is no other: none while closed with STT = 0 (R73), none once dead (R81), no
reception while RXRDY = 1 (R79). -/
inductive EngineMove : Link → Eng → List WireEvent → Link → Eng → Prop where
  /-- R70: the fields are unspecified until the first INIT. -/
  | unspecified (e e' : Eng) (w : List WireEvent) : EngineMove .uninit e w .uninit e'
  /-- R74, R75: `S` when a START is requested and no transaction is open; BUSY is set with it. -/
  | start (e : Eng) : e.stt = true →
      EngineMove .closed e [.s] .started { e with busy := true }
  /-- R75: `Sr` when a START is requested in transmit mode, once every accepted byte has been sent and acknowledged; a START
  in read mode clears TXRDY (R70). -/
  | restart (e : Eng) : e.stt = true → e.txrdy = true →
      EngineMove .transmit e [.sr] .started { e with txrdy := e.tr }
  /-- R75: `Sr` when a START is requested in receive mode, unless the engine holds the bus (R79). -/
  | restartRead (e : Eng) : e.stt = true → e.rxrdy = false →
      EngineMove .receive e [.sr] .started e
  /-- R75: the address byte, its direction bit 1 − TR. -/
  | address (e : Eng) : EngineMove .started e [.ad e.sa (!e.tr)] .addressed e
  /-- R75, R76: the slave answers the address of a transmission: STT clears and TXRDY is set. -/
  | ackedWrite (e : Eng) : e.tr = true →
      EngineMove .addressed e [.ackS] .transmit { e with stt := false, txrdy := true }
  /-- R75: the slave answers the address of a reception: STT clears. -/
  | ackedRead (e : Eng) : e.tr = false →
      EngineMove .addressed e [.ackS] .receive { e with stt := false }
  /-- R81: the slave refuses the address; nothing changes from then on. -/
  | nacked (e : Eng) : EngineMove .addressed e [.nackS] .dead e
  /-- R81: the slave does not answer the address. -/
  | silent (e : Eng) : EngineMove .addressed e [] .dead e
  /-- R76: the byte of a `TX` is sent, once. -/
  | send (e : Eng) : e.txrdy = false →
      EngineMove .transmit e [.dw e.txbuf] .sent e
  /-- R76: the slave answers the byte, and TXRDY is set. -/
  | sentAcked (e : Eng) : EngineMove .sent e [.ackS] .transmit { e with txrdy := true }
  /-- R81: the slave refuses the byte. -/
  | sentNacked (e : Eng) : EngineMove .sent e [.nackS] .dead e
  /-- R81: the slave does not answer the byte. -/
  | sentSilent (e : Eng) : EngineMove .sent e [] .dead e
  /-- R78: `P` when a STOP is requested, no START is, and no byte is waiting to be sent. -/
  | stop (e : Eng) : e.stp = true → e.tr = true → e.stt = false → e.txrdy = true →
      EngineMove .transmit e [.p] .closed { e with stp := false, busy := false, txrdy := false }
  /-- R79, R80: a byte is received and acknowledged while no STOP is requested. -/
  | receive (e : Eng) (b : Byte) : e.tr = false → e.stt = false → e.rxrdy = false → e.stp = false →
      EngineMove .receive e [.dr b, .ackM] .receive { e with rxbuf := b, rxrdy := true }
  /-- R79, R80: the byte that arrives with a STOP requested is answered with NACK, and `P` closes the transaction. -/
  | receiveLast (e : Eng) (b : Byte) : e.tr = false → e.stt = false → e.rxrdy = false → e.stp = true →
      EngineMove .receive e [.dr b, .nackM, .p] .closed
        { e with rxbuf := b, rxrdy := true, stp := false, busy := false }

/-- What an admissible engine may do in one step (R73 to R82): any number of its moves, none included, their events one
after the other on the wire. How many make one step the spec leaves open, but that a received byte is answered in the
step that receives it (R80). -/
inductive EngineContract : Link → Eng → List WireEvent → Link → Eng → Prop where
  | rest (l : Link) (e : Eng) : EngineContract l e [] l e
  | move {l l' l'' : Link} {e e' e'' : Eng} {w w' : List WireEvent} :
      EngineMove l e w l' e' → EngineContract l' e' w' l'' e'' → EngineContract l e (w ++ w') l'' e''

/-- How far the reference engine is, by its MODE (R85): its steps take several moves at once and end in these. -/
def RefMode.link : RefMode → Link
  | .off => .uninit
  | .idle => .closed
  | .txOpen => .transmit
  | .rxOpen => .receive
  | .dead => .dead

/-- The reference engine's MODE agrees with BUSY: a transaction is open exactly in its open and dead modes (R74, R85). -/
def modeMatchesBusy (s : State) : Prop :=
  match s.mode with
  | .off => True
  | .idle => s.eng.busy = false
  | .txOpen => s.eng.busy = true
  | .rxOpen => s.eng.busy = true
  | .dead => s.eng.busy = true

/-- A START. -/
def MicroOp.isStart : MicroOp → Bool
  | .startW => true
  | .startR => true
  | _ => false

/-- The micro-operations of the command in progress that are still to be executed (R30). -/
def State.remaining (s : State) : List MicroOp :=
  if s.btcStep = 0 then [] else s.ulist.drop (s.btcStep - 1)

/-- The BTC and the reference engine agree on the transaction: what R74 and R76 say of BUSY and TXRDY, and the direction
and pending START of each open mode, which hold because of the order of the micro-operations (R142). -/
structure BusInv (s : State) : Prop where
  busy : modeMatchesBusy s
  transmitReady : s.eng.txrdy = true → s.mode = .txOpen ∨ s.mode = .off
  transmitting : s.mode = .txOpen → s.eng.stt = false → s.eng.tr = true
  receiving : s.mode = .rxOpen → s.eng.tr = false ∧ s.eng.stt = false
  /-- No START after a `START_R`. -/
  turnsOnce : (s.remaining.dropWhile (· ≠ .startR)).countP MicroOp.isStart ≤ 1
  /-- A START still to come with no `W_IDLE` before it finds the engine where the transaction's first START left it. -/
  startAhead : (s.remaining.takeWhile (· ≠ .wIdle)).any MicroOp.isStart = true →
    s.mode ≠ .rxOpen ∧ (s.mode = .txOpen → s.eng.tr = true)

/-! ### The premise NACK1 -/

/-- The single-byte NACK window (spec/70_reset_and_hazards.md R317): in a read of one byte, START_R has been executed and
NACKSTOP has not. -/
def State.inNackWindow (s : State) : Prop :=
  s.remaining = [.wStt, .nackStop, .wRx, .rx 0] ∨ s.remaining = [.nackStop, .wRx, .rx 0]

/-- The premise NACK1 at the next step (R317, U15): in the window no step completes the reception of a byte. The window is
taken from START_R on, where R317 names the part after the `W_STT` step: a reception after the repeated START has landed
and before the `W_STT` step has the same effect, and vector HAZ-1 counts it as a breach (DEDUCED, log 28). -/
def State.nack1 (s : State) : Prop :=
  s.inNackWindow → s.eng.rxrdy = false → ∀ t, step s = .next t → t.eng.rxrdy = false

/-- `t` is reached from `s` by steps that all meet NACK1: the premise that a claim about the data of RDR, or of RDRS with
count 1, names where the schedule is arbitrary (R317). -/
inductive RunsUnderNack1 : State → State → Prop where
  | refl (s : State) : RunsUnderNack1 s s
  | step {s t u : State} : RunsUnderNack1 s t → t.nack1 → step t = .next u → RunsUnderNack1 s u

end Sys2Proof.Machine
end

