-- ==== Sys2Proof/Certificates/Slice0/Obligations.lean ====
section
/-! DEFINITION. The statements for the provers, in the order of the spec's files: encoding, acceptance, the BTC and its
commands, the SFU, the MIU, the CLF, the host port, faults, reset, the engine and the slave, the invariants. -/

open Sys2Proof Sys2Proof.Machine

/-! ### Encoding -/

/-- Every command decodes from its own encoding, every operand at every value (30_encoding.md sections 2 and 3). -/
def Obligations.DecodeOfEncodeIsTheCommand : Prop :=
  ∀ i : Instr, i.wellFormed = true → decode (encode i) = .ok i

/-- R113: the decoder accepts exactly the words that select a row of the opcode map, as the row's command and with no
bit of the word lost; no word selects two rows; there are 15. -/
def Obligations.DecodeFollowsTheOpcodeMap : Prop :=
  opcodeRows.length = 15 ∧
  (∀ w r r', r ∈ opcodeRows → r' ∈ opcodeRows → r.selects w = true → r'.selects w = true → r = r') ∧
  ∀ w, match decode w with
    | .ok i => encode i = w ∧ ∃ r ∈ opcodeRows, r.mnemonic = i.mnemonic ∧ r.selects w = true
    | .error _ => ∀ r ∈ opcodeRows, r.selects w = false

/-- Words written out in 95_test_vectors.md decode to the commands they stand for there. -/
def Obligations.WordsOfTheTestVectorsDecode : Prop :=
  decode 0x022A0000 = .ok (.setsa 0x2A) ∧ decode 0x035A0000 = .ok (.wrb 0x5A) ∧
  decode 0x05100100 = .ok (.wrr 0x10 0x01) ∧ decode 0x07200300 = .ok (.rdrs 0x20 3) ∧
  decode 0x1134F200 = .ok (.dec12 0x34 0xF2) ∧ decode 0x14000000 = .ok .savg ∧
  decode 0x21000000 = .ok .updd ∧ decode 0x30000000 = .ok .run ∧
  decode 0x02800000 = .error .reservedField ∧ decode 0xFFFFFFFF = .error .unassignedOpcode

/-! ### Acceptance -/

/-- A host write of a command word to CMD, when it is SBMC's next step, is the command's meaning on the state with the
request and the event taken out; so is the step after `withFetchWord`. -/
def Obligations.StepRunsTheDecodedCommand : Prop :=
  (∀ s w i rest, s.idle = true → s.hostq = .write 0x00 w :: rest → decode w = .ok i →
    s.sched.head? = some .host ∨ (s.sched = [] ∧ s.sbmcEnabled = false) →
    step s = exec i { s with hostq := rest, sched := s.sched.tail }) ∧
  (∀ s nbits w i, State.idle s = true → decodeTableWord nbits w = some i →
    step (s.withFetchWord nbits w) = exec i s)

/-- A host request made while SBMC is not idle is held: the step that would serve it changes nothing but the schedule,
and the request stays (10_state.md section 6). -/
def Obligations.HostRequestIsHeldUntilIdle : Prop :=
  ∀ s evs, s.idle = false → s.sched = .host :: evs → step s = .next { s with sched := evs }

/-- R282: a word that selects no row of the opcode map raises ILLCMD at acceptance, with the word as information. -/
def Obligations.IllegalWordRaisesIllcmd : Prop :=
  ∀ s w, s.accepting → (∀ r ∈ opcodeRows, r.selects w = false) →
    acceptWord w s = .next (s.refusedWith 0x01 w)

/-- Any word presented while a command is in progress or once FAULT ≠ 0 changes nothing (30_encoding.md section 1). -/
def Obligations.WordIsDiscardedOnceFaulted : Prop :=
  ∀ s w, s.btcStep ≠ 0 ∨ s.fault ≠ 0 → acceptWord w s = .next s

/-- R283: WRBS and RDRS with a length or count of 0 or above the buffer's depth raise BADLEN, before the tests of INITM
and SETSA. -/
def Obligations.BadLengthRaisesBadlen : Prop :=
  ∀ s (n : Byte), s.accepting →
    (n.toNat = 0 ∨ s.cfg.txbDepth < n.toNat →
      exec (.wrbs n) s = .next (s.refusedWith 0x02 (encode (.wrbs n)))) ∧
    (n.toNat = 0 ∨ s.cfg.rxbDepth < n.toNat →
      ∀ f, exec (.rdrs f n) s = .next (s.refusedWith 0x02 (encode (.rdrs f n))))

/-- R284: a transaction command before INITM raises NOINIT (the legal lengths only, since BADLEN is tested first);
SETSA before INITM is not refused. -/
def Obligations.TransactionBeforeInitmRaisesNoinit : Prop :=
  ∀ s, s.accepting → s.initDone = false →
    (∀ i, isLegalTransaction s.cfg i = true → exec i s = .next (s.refusedWith 0x04 (encode i))) ∧
    ∀ a, exec (.setsa a) s = .next { s with ulist := [.latchSa a], btcStep := 1, btcXyz := false }

/-- R285: a transaction command after INITM and before SETSA raises NOADDR. -/
def Obligations.TransactionBeforeSetsaRaisesNoaddr : Prop :=
  ∀ s i, s.accepting → isLegalTransaction s.cfg i = true → s.initDone = true → s.saValid = false →
    exec i s = .next (s.refusedWith 0x08 (encode i))

/-! ### The commands of the BTC -/

/-- INITM and SETSA are accepted and load the lists of R142; nothing else changes. -/
def Obligations.InitmAndSetsaLoadTheirLists : Prop :=
  ∀ s, s.accepting →
    exec .initm s = .next { s with
      ulist := if s.initDone then [.wIdle, .init] else [.init], btcStep := 1, btcXyz := false } ∧
    ∀ a, exec (.setsa a) s = .next { s with
      ulist := if s.initDone then [.wIdle, .latchSa a] else [.latchSa a], btcStep := 1, btcXyz := false }

/-- WRB, WRR and WRBS are accepted and load the lists of R142, WRBS with `TXB[n−1]` first; nothing else changes. -/
def Obligations.WriteCommandsLoadTheirLists : Prop :=
  ∀ s, s.acceptingTransaction →
    (∀ d, exec (.wrb d) s = .next { s with
      ulist := [.wIdle, .startW, .wTx, .tx d, .wTx, .stop, .wStp], btcStep := 1, btcXyz := false }) ∧
    (∀ r d, exec (.wrr r d) s = .next { s with
      ulist := [.wIdle, .startW, .wTx, .tx r, .wTx, .tx d, .wTx, .stop, .wStp], btcStep := 1, btcXyz := false }) ∧
    (∀ n : Byte, 1 ≤ n.toNat → n.toNat ≤ s.cfg.txbDepth → exec (.wrbs n) s = .next { s with
      ulist := [.wIdle, .startW]
        ++ (List.range n.toNat).reverse.flatMap (fun i => [.wTx, .tx (s.txb.toList.getD i 0)])
        ++ [.wTx, .stop, .wStp]
      btcStep := 1, btcXyz := false })

/-- RDR, RDRS and RDXYZ are accepted and load the lists of R142, RDXYZ that of `RDRS REG_DATA0, 7`, marked so that its
completion decodes the sample; nothing else changes. -/
def Obligations.ReadCommandsLoadTheirLists : Prop :=
  ∀ s, s.acceptingTransaction →
    (∀ r, exec (.rdr r) s = .next { s with
      ulist := [.wIdle, .startW, .wTx, .tx r, .wTx, .startR, .wStt, .nackStop, .wRx, .rx 0]
      btcStep := 1, btcXyz := false }) ∧
    (1 ≤ s.cfg.rxbDepth → ∀ f, exec (.rdrs f 1) s = .next { s with
      ulist := [.wIdle, .startW, .wTx, .tx f, .wTx, .startR, .wStt, .nackStop, .wRx, .rx 0]
      btcStep := 1, btcXyz := false }) ∧
    (∀ f (c : Byte), 2 ≤ c.toNat → c.toNat ≤ s.cfg.rxbDepth → exec (.rdrs f c) s = .next { s with
      ulist := [.wIdle, .startW, .wTx, .tx f, .wTx, .startR, .wStt]
        ++ (List.range c.toNat).flatMap (fun i =>
          if i = c.toNat - 2 then [.wRx, .nackStop, .rx (Fin.ofNat 255 i)] else [.wRx, .rx (Fin.ofNat 255 i)])
      btcStep := 1, btcXyz := false }) ∧
    exec .rdxyz s = .next { s with
      ulist := [.wIdle, .startW, .wTx, .tx s.cfg.params.regData0, .wTx, .startR, .wStt]
        ++ [.wRx, .rx 0, .wRx, .rx 1, .wRx, .rx 2, .wRx, .rx 3, .wRx, .rx 4, .wRx, .nackStop, .rx 5, .wRx, .rx 6]
      btcStep := 1, btcXyz := true }

/-- R168: where they are accepted, WRB d is WRBS 1 with `TXB[0] = d`, WRR r, d is WRBS 2 with `TXB[1] = r` and
`TXB[0] = d` (in a build whose TXB has two bytes), RDR r is RDRS r, 1: the same next state, so the same traces under the
same environment. -/
def Obligations.CommandsOfOneListAreEqual : Prop :=
  ∀ s, s.cfg.wellFormed = true → s.acceptingTransaction →
    (∀ d, s.txb[0] = d → exec (.wrb d) s = exec (.wrbs 1) s) ∧
    (2 ≤ s.cfg.txbDepth → ∀ r d, s.txb[1] = r → s.txb[0] = d → exec (.wrr r d) s = exec (.wrbs 2) s) ∧
    (∀ r, exec (.rdr r) s = exec (.rdrs r 1) s)

/-! ### The micro-operations -/

/-- The five waits: taken when its condition holds on the engine fields, a wait only moves the BTC on; otherwise the
BTC has no step and nothing changes (40_btc_commands.md section 1). -/
def Obligations.WaitsOnlyAdvance : Prop :=
  ∀ s, s.btcStep ≠ 0 →
    (s.currentOp = some .wIdle →
      sbmcStep s = .next (if s.eng.busy = false ∧ s.eng.stp = false then advance s else s)) ∧
    (s.currentOp = some .wTx → sbmcStep s = .next (if s.eng.txrdy = true then advance s else s)) ∧
    (s.currentOp = some .wStt → sbmcStep s = .next (if s.eng.stt = false then advance s else s)) ∧
    (s.currentOp = some .wStp → sbmcStep s = .next (if s.eng.stp = false then advance s else s)) ∧
    (s.currentOp = some .wRx → sbmcStep s = .next (if s.eng.rxrdy = true then advance s else s))

/-- The eight actions are always enabled, write what their rules say, append themselves to ACT (LATCH_SA does not),
and move the BTC on (40_btc_commands.md section 1). -/
def Obligations.ActionsWriteWhatTheirRulesSay : Prop :=
  ∀ s, s.btcStep ≠ 0 →
    (s.currentOp = some .init → sbmcStep s = .next (advance { s with
      eng := { s.eng with busy := false, stt := false, stp := false, txrdy := false, rxrdy := false }
      mode := .idle, initDone := true, act := s.act ++ [.init] })) ∧
    (s.currentOp = some .startW → sbmcStep s = .next (advance { s with
      eng := { s.eng with sa := s.sa, tr := true, stt := true }, act := s.act ++ [.startW] })) ∧
    (s.currentOp = some .startR → sbmcStep s = .next (advance { s with
      eng := { s.eng with sa := s.sa, tr := false, stt := true }, act := s.act ++ [.startR] })) ∧
    (∀ b, s.currentOp = some (.tx b) → sbmcStep s = .next (advance { s with
      eng := { s.eng with txbuf := b, txrdy := false }, act := s.act ++ [.tx b] })) ∧
    (s.currentOp = some .stop → sbmcStep s = .next (advance { s with
      eng := { s.eng with stp := true }, act := s.act ++ [.stop] })) ∧
    (s.currentOp = some .nackStop → sbmcStep s = .next (advance { s with
      eng := { s.eng with stp := true }, act := s.act ++ [.nackStop] })) ∧
    (∀ k, s.currentOp = some (.rx k) → sbmcStep s = .next (advance { s with
      rxb := s.rxb.set k s.eng.rxbuf, res := s.eng.rxbuf.setWidth 32
      eng := { s.eng with rxrdy := false }, act := s.act ++ [.rx k s.eng.rxbuf] })) ∧
    (∀ a, s.currentOp = some (.latchSa a) → sbmcStep s = .next (advance { s with sa := a, saValid := true }))

/-- Moving on: to the next number, or, after the last micro-operation, to STEP 0 with an empty list; and the last one
of RDXYZ also decodes the sample from RXB (R158, R191). -/
def Obligations.LastMicroOperationCompletesTheCommand : Prop :=
  ∀ s, (s.btcStep < s.ulist.length → advance s = { s with btcStep := s.btcStep + 1 }) ∧
    (s.ulist.length ≤ s.btcStep → s.btcXyz = false →
      advance s = { s with ulist := [], btcStep := 0, btcXyz := false }) ∧
    (s.ulist.length ≤ s.btcStep → s.btcXyz = true → advance s = { s with
      ulist := [], btcStep := 0, btcXyz := false
      sx := BitVec.ofInt 32 (dec12 s.rxb[0] s.rxb[1])
      sy := BitVec.ofInt 32 (dec12 s.rxb[2] s.rxb[3])
      sz := BitVec.ofInt 32 (dec12 s.rxb[4] s.rxb[5])
      sst := s.rxb[6]
      res := s.rxb[6].setWidth 32 })

/-- The list lengths that close R142: WRB 7, WRBS 2n+5, WRR 9, RDR 10, RDRS 2c+8. -/
def Obligations.CommandListsHaveTheirLengths : Prop :=
  (∀ d, (writeList [d]).length = 7) ∧
  (∀ txb n, (writeList (txBytes txb n)).length = 2 * n + 5) ∧
  (∀ r d, (writeList [r, d]).length = 9) ∧
  (∀ r, (readOneList r).length = 10) ∧
  (∀ f c, 1 ≤ c → (readList f c).length = 2 * c + 8)

/-- The first half of R169: the list of every accepted RDR or RDRS has exactly one NACKSTOP, after START_R, with
max(c − 2, 0) receptions before it and at least one after it. -/
def Obligations.NackStopStandsBeforeTheLastByte : Prop :=
  ∀ f c, 1 ≤ c →
    (readList f c).count .nackStop = 1 ∧
    MicroOp.startR ∈ (readList f c).takeWhile (· ≠ .nackStop) ∧
    ((readList f c).takeWhile (· ≠ .nackStop)).countP MicroOp.isRx = c - 2 ∧
    1 ≤ ((readList f c).dropWhile (· ≠ .nackStop)).countP MicroOp.isRx

/-- The shape of R170, on the lists: the first action of a transaction is START_W; it has exactly one STOP or NACKSTOP;
a write's last action is STOP; in a read no TX follows START_R and no RX precedes it. -/
def Obligations.TransactionListsHaveTheirShape : Prop :=
  (∀ bytes, ((writeList bytes).filter MicroOp.traced).head? = some .startW ∧
    (writeList bytes).countP (fun u => u == .stop || u == .nackStop) = 1 ∧
    ((writeList bytes).filter MicroOp.traced).getLast? = some .stop) ∧
  (∀ f c, 1 ≤ c → ((readList f c).filter MicroOp.traced).head? = some .startW ∧
    (readList f c).countP (fun u => u == .stop || u == .nackStop) = 1 ∧
    (∀ u ∈ (readList f c).dropWhile (· ≠ .startR), u.isTx = false) ∧
    (∀ u ∈ (readList f c).takeWhile (· ≠ .startR), u.isRx = false))

/-- Under any environment and any schedule, while a command is in progress ACT grows by exactly the actions of its list
in list order: a step keeps "ACT has grown by the actions of the first STEP − 1 micro-operations", and the step that
completes the command leaves ACT grown by all of them (40_btc_commands.md section 1, R140 to R144). -/
def Obligations.ActFollowsTheCommandList : Prop :=
  ∀ s t before, s.btcStep ≠ 0 → s.btcStep ≤ s.ulist.length →
    ActGrownBy before s.ulist (s.btcStep - 1) s → step s = .next t → s.nextEvent ≠ .rst →
    (t.btcStep ≠ 0 ∧ t.ulist = s.ulist ∧ t.btcStep ≤ t.ulist.length ∧ ActGrownBy before t.ulist (t.btcStep - 1) t) ∨
    (t.btcStep = 0 ∧ t.ulist = [] ∧ ActGrownBy before s.ulist s.ulist.length t)

/-- No micro-operation raises a fault: while a command is in progress no step but the reset event touches FAULT or
FINFO, whatever the environment puts in the engine fields (60_exceptions.md section 1, R299). -/
def Obligations.TransactionInProgressRaisesNoFault : Prop :=
  ∀ s t, s.btcStep ≠ 0 → step s = .next t → s.nextEvent ≠ .rst → t.fault = s.fault ∧ t.finfo = s.finfo

/-! ### The Sample Filter Unit -/

/-- DEC12 writes RES with the sign-extended 12-bit sample and changes nothing else (41_sensor_sfu.md section 1). -/
def Obligations.Dec12WritesTheDecodedSample : Prop :=
  ∀ s (lo hi : Byte), s.accepting →
    exec (.dec12 lo hi) s = .next { s with
      res := BitVec.ofInt 32 (
        if 2048 ≤ (hi.toNat % 16) * 256 + lo.toNat then ((hi.toNat % 16 * 256 + lo.toNat : Nat) : Int) - 4096
        else ((hi.toNat % 16 * 256 + lo.toNat : Nat) : Int)) }

/-- The decode is 12-bit two's complement of the high byte's low nibble and the low byte; its range is R197 (a). -/
def Obligations.Dec12IsTwelveBitTwosComplement : Prop :=
  ∀ lo hi : Byte, dec12 lo hi = (hi.extractLsb' 0 4 ++ lo).toInt ∧ -2048 ≤ dec12 lo hi ∧ dec12 lo hi ≤ 2047

/-- SCLR zeroes SUM and SCNT and changes nothing else (41_sensor_sfu.md section 1). -/
def Obligations.SclrClearsTheAccumulator : Prop :=
  ∀ s, s.accepting → exec .sclr s = .next { s with sum := 0, scnt := 0 }

/-- SACC adds the drive axis's sample and counts it; with N_AVG samples summed it raises BADSEQ instead. -/
def Obligations.SaccAddsTheDriveSample : Prop :=
  ∀ s, s.accepting →
    (s.scnt.toNat < s.cfg.nAvg →
      exec .sacc s = .next { s with
        sum := s.sum + (match s.cfg.driveAxis with | .x => s.sx | .y => s.sy | .z => s.sz), scnt := s.scnt + 1 }) ∧
    (s.cfg.nAvg ≤ s.scnt.toNat → exec .sacc s = .next (s.refusedWith 0x10 0x13000000))

/-- SAVG delivers the truncated, masked average to ACC; unless SCNT = N_AVG it raises BADSEQ instead. -/
def Obligations.SavgDeliversTheMaskedAverage : Prop :=
  ∀ s, s.accepting →
    (s.scnt.toNat = s.cfg.nAvg →
      exec .savg s = .next { s with
        acc := BitVec.ofInt 32 (s.sum.toInt.tdiv s.cfg.nAvg) &&& (0xFFFFFFFF#32 <<< s.cfg.maskBits) }) ∧
    (s.scnt.toNat ≠ s.cfg.nAvg → exec .savg s = .next (s.refusedWith 0x10 0x14000000))

/-- R197 (b) and (d): without masking, N_AVG equal samples average to that sample; and whatever the mask, the average
of N_AVG samples is a sample again. -/
def Obligations.AverageStaysInTheSampleRange : Prop :=
  ∀ c : Config, c.wellFormed = true →
    (c.maskBits = 0 → ∀ v : Int, -2048 ≤ v → v ≤ 2047 →
      (average c (BitVec.ofInt 32 (v * c.nAvg))).toInt = v) ∧
    (∀ sum : Word, -2048 * (c.nAvg : Int) ≤ sum.toInt → sum.toInt ≤ 2047 * (c.nAvg : Int) →
      sampleRange (average c sum))

/-! ### The Motion Integrator Unit -/

/-- UPDV adds `tdiv(ACC·DT, SCALE)` to VEL, exactly; where the result does not fit 32 bits it raises IOVF instead. -/
def Obligations.UpdvUpdatesVelocity : Prop :=
  ∀ s, s.accepting →
    let v := s.vel.toInt + (s.acc.toInt * (s.cfg.dt : Int)).tdiv s.cfg.scale
    (-2 ^ 31 ≤ v ∧ v ≤ 2 ^ 31 - 1 → exec .updv s = .next { s with vel := BitVec.ofInt 32 v }) ∧
    (v < -2 ^ 31 ∨ 2 ^ 31 - 1 < v → exec .updv s = .next (s.refusedWith 0x20 0x20000000))

/-- UPDD adds `tdiv(VEL·DT, SCALE)` to DIST, exactly; where the result does not fit 32 bits it raises IOVF instead. -/
def Obligations.UpddUpdatesDistance : Prop :=
  ∀ s, s.accepting →
    let v := s.dist.toInt + (s.vel.toInt * (s.cfg.dt : Int)).tdiv s.cfg.scale
    (-2 ^ 31 ≤ v ∧ v ≤ 2 ^ 31 - 1 → exec .updd s = .next { s with dist := BitVec.ofInt 32 v }) ∧
    (v < -2 ^ 31 ∨ 2 ^ 31 - 1 < v → exec .updd s = .next (s.refusedWith 0x20 0x21000000))

/-- R226: with ACC = 0 UPDV changes nothing, and UPDD changes nothing exactly when |VEL·DT| < SCALE. -/
def Obligations.IntegratorIsIdempotentAtRest : Prop :=
  ∀ s, s.cfg.wellFormed = true → s.accepting →
    (s.acc = 0 → exec .updv s = .next s) ∧
    (exec .updd s = .next s ↔ (s.vel.toInt * (s.cfg.dt : Int)).natAbs < s.cfg.scale) ∧
    (s.vel = 0 → exec .updd s = .next s)

/-- R227: the truncated step q(a) = tdiv(a·DT, SCALE) deviates from linearity by at most 1 and is odd. -/
def Obligations.IntegratorIsLinearUpToTruncation : Prop :=
  ∀ (c : Config) (a : Int), c.wellFormed = true →
    (tdiv (2 * a * c.dt) c.scale - 2 * tdiv (a * c.dt) c.scale).natAbs ≤ 1 ∧
    tdiv (-a * c.dt) c.scale = -tdiv (a * c.dt) c.scale

/-! ### The control-loop FSM -/

/-- RUN enters AUTO mode at phase Accelerating with the MotionState zeroed; nothing else changes (43_clf.md section 2). -/
def Obligations.RunStartsTheCourse : Prop :=
  ∀ s, s.accepting → s.tpc = .wait →
    exec .run s = .next { s with
      run := true, phase := .accelerating, ramp := 0, dwell := 0, vel := 0, dist := 0, tickPend := false }

/-- R291: TickArrive is ignored in HOST mode, in Stopped and after a fault; otherwise it sets TICK_PEND, or TICK_OVR
when TICK_PEND is already set. -/
def Obligations.TickArriveSetsThePendingFlag : Prop :=
  ∀ s evs, s.sched = .tick :: evs →
    step s = .next (
      if s.run = false ∨ s.phase = .stopped ∨ s.fault ≠ 0 then { s with sched := evs }
      else if s.tickPend then { s with sched := evs, tickOvr := true }
      else { s with sched := evs, tickPend := true })

/-- T_START: taken only in AUTO mode, with no fault, before Stopped, with a tick pending and SBMC idle; a dwell tick
counts DWELL down and goes to T_EMIT, with the reverse command, VEL = 0 and Reversing when DWELL reaches 0; any other
tick goes to T_SCLR (43_clf.md section 3). -/
def Obligations.TickStartTakesThePendingTick : Prop :=
  ∀ s, s.idle = true →
    (s.run = true → s.fault = 0 → s.phase ≠ .stopped → s.tickPend = true →
      (s.dwell = 0 → sbmcStep s = .next { s with tickPend := false, tpc := .sclr }) ∧
      (s.dwell ≠ 0 → s.dwell ≠ 1 →
        sbmcStep s = .next { s with tickPend := false, dwell := s.dwell - 1, tpc := .emit }) ∧
      (s.dwell = 1 → sbmcStep s = .next { s with
        tickPend := false, dwell := 0, tpc := .emit
        emitq := s.emitq ++ [s.cfg.params.cmdReverse], vel := 0, phase := .reversing })) ∧
    (s.run = false ∨ s.fault ≠ 0 ∨ s.phase = .stopped ∨ s.tickPend = false → sbmcStep s = .next s)

/-- The rows T_SCLR to T_UPDD of the tick program, each with its effect, its next position, and its refusal
(43_clf.md section 3, R245 and R247). -/
def Obligations.TickProgramRowsDoWhatTheTableSays : Prop :=
  ∀ s, s.btcStep = 0 → s.fault = 0 →
    (s.tpc = .sclr → sbmcStep s = .next { s with sum := 0, scnt := 0, srep := s.cfg.nAvg, tpc := .read }) ∧
    (s.tpc = .read → s.initDone = true → s.saValid = true → sbmcStep s = .next { s with
      ulist := readList s.cfg.params.regData0 7, btcStep := 1, btcXyz := true, tpc := .acc }) ∧
    (s.tpc = .read → s.initDone = false → sbmcStep s = .next (s.refusedWith 0x04 0x10000000)) ∧
    (s.tpc = .read → s.initDone = true → s.saValid = false →
      sbmcStep s = .next (s.refusedWith 0x08 0x10000000)) ∧
    (s.tpc = .acc → s.scnt.toNat < s.cfg.nAvg → sbmcStep s = .next { s with
      sum := s.sum + driveSample s, scnt := s.scnt + 1, srep := s.srep - 1
      tpc := if 0 < s.srep - 1 then .read else .avg }) ∧
    (s.tpc = .avg → s.scnt.toNat = s.cfg.nAvg → sbmcStep s = .next { s with
      acc := average s.cfg s.sum, tpc := .updv }) ∧
    (s.tpc = .updv → fits32 (integrate s.cfg s.acc s.vel) = true → sbmcStep s = .next { s with
      vel := BitVec.ofInt 32 (integrate s.cfg s.acc s.vel), tpc := .updd }) ∧
    (s.tpc = .updv → fits32 (integrate s.cfg s.acc s.vel) = false →
      sbmcStep s = .next (s.refusedWith 0x20 0x20000000)) ∧
    (s.tpc = .updd → fits32 (integrate s.cfg s.vel s.dist) = true → sbmcStep s = .next { s with
      dist := BitVec.ofInt 32 (integrate s.cfg s.vel s.dist), tpc := .phev }) ∧
    (s.tpc = .updd → fits32 (integrate s.cfg s.vel s.dist) = false →
      sbmcStep s = .next (s.refusedWith 0x20 0x21000000))

/-- T_PHEV, by the phase at entry: the next speed command and CruisingForward after the last (R249); the stop command
at DIST ≥ DIST_TARGET, with the dwell or, without one, the reverse at once (R250, R251); the stop command and Stopped
at DIST ≤ DIST_START (R253). -/
def Obligations.PhaseEvaluationFollowsThePhase : Prop :=
  ∀ s, s.btcStep = 0 → s.fault = 0 → s.tpc = .phev →
    (∀ c, s.phase = .accelerating → s.ramp ≠ 255 → s.cfg.params.cmdSpeed[s.ramp.toNat]? = some c →
      sbmcStep s = .next { s with
        ramp := s.ramp + 1, emitq := [c], tpc := .emit
        phase := if s.ramp.toNat + 1 = s.cfg.nRamp then .cruisingForward else .accelerating }) ∧
    (s.phase = .cruisingForward → s.dist.toInt < s.cfg.params.distTarget.toInt →
      sbmcStep s = .next { s with tpc := .emit }) ∧
    (s.phase = .cruisingForward → s.cfg.params.distTarget.toInt ≤ s.dist.toInt → s.cfg.params.dwellTicks ≠ 0 →
      sbmcStep s = .next { s with
        emitq := [s.cfg.params.cmdStop], dwell := s.cfg.params.dwellTicks, tpc := .emit }) ∧
    (s.phase = .cruisingForward → s.cfg.params.distTarget.toInt ≤ s.dist.toInt → s.cfg.params.dwellTicks = 0 →
      sbmcStep s = .next { s with
        emitq := [s.cfg.params.cmdStop, s.cfg.params.cmdReverse], vel := 0, phase := .reversing, tpc := .emit }) ∧
    (s.phase = .reversing → s.cfg.distStart.toInt < s.dist.toInt → sbmcStep s = .next { s with tpc := .emit }) ∧
    (s.phase = .reversing → s.dist.toInt ≤ s.cfg.distStart.toInt → sbmcStep s = .next { s with
      emitq := [s.cfg.params.cmdStop], phase := .stopped, tpc := .emit })

/-- R255: T_EMIT waits for OTX.BUSY = 0, hands the head of the queue over, or ends the tick when the queue is empty. -/
def Obligations.EmissionHandsOverOneCommand : Prop :=
  ∀ s, s.btcStep = 0 → s.fault = 0 → s.tpc = .emit →
    (s.otx.busy = true → sbmcStep s = .next s) ∧
    (s.otx.busy = false → s.emitq = [] → sbmcStep s = .next { s with tpc := .wait }) ∧
    (∀ c rest, s.otx.busy = false → s.emitq = c :: rest → sbmcStep s = .next { s with
      emitq := rest, otx := { data0 := c.b0, data1 := c.b1, busy := true }, out := s.out ++ [c] })

/-- R260 (a): OTX's own step clears BUSY and changes nothing else. -/
def Obligations.OtxOnlyClearsItsBusy : Prop :=
  ∀ s evs, s.sched = .otx :: evs → step s = .next { s with sched := evs, otx := { s.otx with busy := false } }

/-- R257: in AUTO mode every step but the reset event keeps the phase or moves it to the next one. -/
def Obligations.PhaseOnlyMovesForward : Prop :=
  ∀ s t, MachineInv s → s.run = true → step s = .next t → s.nextEvent ≠ .rst →
    t.phase = s.phase ∨
    (s.phase = .accelerating ∧ t.phase = .cruisingForward) ∨
    (s.phase = .cruisingForward ∧ t.phase = .reversing) ∨
    (s.phase = .reversing ∧ t.phase = .stopped)

/-- AUTO mode is left only by reset (43_clf.md section 2, 60_exceptions.md section 6). -/
def Obligations.AutoModeIsLeftOnlyByReset : Prop :=
  ∀ s t, s.run = true → step s = .next t → s.nextEvent ≠ .rst → t.run = true

/-- R254: Stopped is terminal. From an idle machine in Stopped, every step but the reset event leaves it idle in
Stopped and AUTO mode, with no bus action, no drive command, and VEL, DIST and ACC as they were. -/
def Obligations.StoppedIsTerminal : Prop :=
  ∀ s t, s.idle = true → s.run = true → s.phase = .stopped → step s = .next t → s.nextEvent ≠ .rst →
    t.idle = true ∧ t.run = true ∧ t.phase = .stopped ∧ t.act = s.act ∧ t.out = s.out ∧
    t.vel = s.vel ∧ t.dist = s.dist ∧ t.acc = s.acc

/-- The drive commands handed over and queued are, after every step, exactly those the course's phase, ramp and dwell
have decided since RUN (43_clf.md sections 4 and 5). -/
def Obligations.StepKeepsTheDecidedCommands : Prop :=
  ∀ s t, MachineInv s → OutInv s → step s = .next t → OutInv t

/-- R261: whatever OUT holds is a prefix of the speed commands in order, stop, reverse, stop. -/
def Obligations.OutIsAPrefixOfTheCourseGrammar : Prop :=
  ∀ s, MachineInv s → OutInv s → s.out <+: courseGrammar s.cfg

/-! ### The host port -/

/-- R46 in HOST mode: a host write to ACC, VEL or DIST stores the word, one to `TXB[k]` its low byte, and nothing else
changes; once FAULT ≠ 0 any write changes nothing. -/
def Obligations.HostWriteStoresItsRegister : Prop :=
  ∀ s v, (s.fault = 0 → s.run = false →
      hostWrite 0x18 v s = .next { s with acc := v } ∧
      hostWrite 0x1C v s = .next { s with vel := v } ∧
      hostWrite 0x20 v s = .next { s with dist := v } ∧
      ∀ k : Fin 16, hostWrite (BitVec.ofNat 8 (0x40 + 4 * k)) v s
        = .next { s with txb := s.txb.set k.val (v.extractLsb' 0 8) }) ∧
    (s.fault ≠ 0 → ∀ off, hostWrite off v s = .next s)

/-- R45: a read at a legal offset returns the register and changes no state of SBMC; CMD reads 0. The fields of STATUS,
BCTL and CLS are those of `FlagRegistersReadTheirFields`. -/
def Obligations.HostReadReturnsTheRegister : Prop :=
  ∀ s, hostRead 0x00 s = { s with hrdata := 0 } ∧
    hostRead 0x04 s = { s with hrdata := s.status } ∧
    hostRead 0x08 s = { s with hrdata := s.fault.setWidth 32 } ∧
    hostRead 0x0C s = { s with hrdata := s.finfo } ∧ hostRead 0x10 s = { s with hrdata := s.res } ∧
    hostRead 0x14 s = { s with hrdata := s.bctl } ∧
    hostRead 0x18 s = { s with hrdata := s.acc } ∧ hostRead 0x1C s = { s with hrdata := s.vel } ∧
    hostRead 0x20 s = { s with hrdata := s.dist } ∧ hostRead 0x24 s = { s with hrdata := s.sx } ∧
    hostRead 0x28 s = { s with hrdata := s.sy } ∧ hostRead 0x2C s = { s with hrdata := s.sz } ∧
    hostRead 0x30 s = { s with hrdata := s.sst.setWidth 32 } ∧ hostRead 0x34 s = { s with hrdata := s.sum } ∧
    hostRead 0x38 s = { s with hrdata := s.scnt.setWidth 32 } ∧ hostRead 0x3C s = { s with hrdata := s.cls } ∧
    ∀ k : Fin 16, hostRead (BitVec.ofNat 8 (0x40 + 4 * k)) s = { s with hrdata := s.txb[k.val].setWidth 32 } ∧
      hostRead (BitVec.ofNat 8 (0x80 + 4 * k)) s = { s with hrdata := s.rxb[k.val].setWidth 32 }

/-- The fields of STATUS, BCTL and CLS stand where R21, R25 and R29 put them, and every unnamed bit reads 0. -/
def Obligations.FlagRegistersReadTheirFields : Prop :=
  ∀ s : State,
    (∀ i, s.status.getLsbD i = ((i == 0 && s.tickPend) || (i == 1 && s.tickOvr) || (i == 2 && s.fault != 0))) ∧
    (∀ i, s.bctl.getLsbD i = ((decide (i < 7) && s.sa.getLsbD i) || (i == 8 && s.saValid) || (i == 9 && s.initDone))) ∧
    s.cls.toNat = (phaseBits s.phase).toNat + 4 * s.run.toNat + 2 ^ 8 * s.ramp.toNat + 2 ^ 16 * s.dwell.toNat

/-- R288: an offset that is no multiple of 4 or above 0xBC, and a write to a read-only register, raise HACC with the
access as information; a refused read returns 0, and a read of CMD is legal and returns 0. R281 (c): once FAULT ≠ 0 a
read at such an offset returns 0 and raises nothing. -/
def Obligations.IllegalAccessRaisesHacc : Prop :=
  ∀ s (off : BitVec 8) v,
    (off.toNat % 4 ≠ 0 ∨ 0xBC < off.toNat → s.fault = 0 →
      hostRead off s = { s.refusedWith 0x40 (0xFF000000 ||| off.setWidth 32) with hrdata := 0 } ∧
      hostWrite off v s = .next (s.refusedWith 0x40 (0xFF000100 ||| off.setWidth 32))) ∧
    (off.toNat % 4 = 0 → (4 ≤ off.toNat ∧ off.toNat ≤ 0x14) ∨ (0x24 ≤ off.toNat ∧ off.toNat ≤ 0x3C) ∨
        (0x80 ≤ off.toNat ∧ off.toNat ≤ 0xBC) → s.fault = 0 →
      hostWrite off v s = .next (s.refusedWith 0x40 (0xFF000100 ||| off.setWidth 32))) ∧
    hostRead 0x00 s = { s with hrdata := 0 } ∧
    (off.toNat % 4 ≠ 0 ∨ 0xBC < off.toNat → s.fault ≠ 0 → hostRead off s = { s with hrdata := 0 })

/-- R289: in AUTO mode a host write to CMD, any word, raises CLFOWN with the word as information before it is decoded;
one to ACC, VEL, DIST or TXB raises CLFOWN with the access as information; one to a read-only register raises HACC. -/
def Obligations.HostWriteInAutoModeRaisesClfown : Prop :=
  ∀ s (off : BitVec 8) v, s.idle = true → s.fault = 0 → s.run = true →
    hostWrite 0x00 v s = .next (s.refusedWith 0x80 v) ∧
    (off.toNat % 4 = 0 → (0x18 ≤ off.toNat ∧ off.toNat ≤ 0x20) ∨ (0x40 ≤ off.toNat ∧ off.toNat ≤ 0x7C) →
      hostWrite off v s = .next (s.refusedWith 0x80 (0xFF000100 ||| off.setWidth 32))) ∧
    (off.toNat % 4 = 0 → (4 ≤ off.toNat ∧ off.toNat ≤ 0x14) ∨ (0x24 ≤ off.toNat ∧ off.toNat ≤ 0x3C) ∨
        (0x80 ≤ off.toNat ∧ off.toNat ≤ 0xBC) →
      hostWrite off v s = .next (s.refusedWith 0x40 (0xFF000100 ||| off.setWidth 32)))

/-- R281: once FAULT ≠ 0 the block is frozen. Every step but the reset event leaves all of it as it was; only the engine,
the slave, OTX, the wire, the port's read data and the pending requests and events move. -/
def Obligations.FaultFreezesTheBlock : Prop :=
  ∀ s t, FaultInv s → s.fault ≠ 0 → step s = .next t → s.nextEvent ≠ .rst →
    t = { s with
      eng := t.eng, mode := t.mode, slv := t.slv, otx := t.otx, wire := t.wire
      hrdata := t.hrdata, hostq := t.hostq, sched := t.sched }

/-! ### Reset -/

/-- R48: the values after reset, and every host-visible register reads 0. -/
def Obligations.ResetLeavesEveryRegisterZero : Prop :=
  (∀ off : BitVec 8, (hostRead off State.reset).hrdata = 0) ∧
  State.reset.sa = 0 ∧ State.reset.saValid = false ∧ State.reset.initDone = false ∧
  State.reset.phase = .accelerating ∧ State.reset.run = false ∧
  State.reset.btcStep = 0 ∧ State.reset.ulist = [] ∧ State.reset.tpc = .wait ∧ State.reset.srep = 0 ∧
  State.reset.emitq = [] ∧ State.reset.act = [] ∧ State.reset.wire = [] ∧ State.reset.out = []

/-- R310: the reset event, in any state, puts every register, sequencer field and trace at its value after reset. The
build, the slave and what other agents hold (R311) are the rest; the engine and transport fields are free. -/
def Obligations.ResetEventRestoresTheResetState : Prop :=
  ∀ s evs, s.sched = .rst :: evs → ∃ t, step s = .next t ∧
    t = { State.reset with
      cfg := s.cfg, slv := s.slv, hostq := s.hostq, sched := evs, draws := s.draws + 1, eng := t.eng, otx := t.otx }

/-! ### The engine and the slave -/

/-- Where the BTC and the reference engine agree on the transaction, every step of the reference engine is one the engine
contract admits, and ends where its MODE says (20_memory.md sections 6.1 and 6.2; log 27). -/
def Obligations.ReferenceEngineMeetsTheContract : Prop :=
  ∀ s, BusInv s → s.engineEnabled = true →
    let t := engineStep s
    ∃ w, t.wire = s.wire ++ w ∧ EngineContract s.mode.link s.eng w t.mode.link t.eng

/-- BUSY is 1 exactly while the reference engine has a transaction open, and with it TXRDY, the direction and the pending
START agree with the transaction: each kept by every step but the unconstrained environment's. -/
def Obligations.StepKeepsBusyWithTheOpenTransaction : Prop :=
  ∀ s t, step s = .next t → (∀ e w, s.nextEvent ≠ .engineSets e w) →
    (modeMatchesBusy s → modeMatchesBusy t) ∧ (BusInv s → BusInv t)

/-- The reference engine and slave, each step whole, nothing outside the engine, the slave and the wire changing. E-TX: the
byte in TXBUF goes to the register the slave's pointer names, and to no other, or, as the first byte after the address,
becomes the pointer and touches no register. E-RX: the register the pointer names goes to RXBUF, the pointer steps, and no
register changes. E-STARTW: acknowledged exactly when SA is the slave's address, and then FIRST is set. E-STARTR and
E-STOPW leave the slave. -/
def Obligations.TransmittedByteGoesToTheAddressedRegister : Prop :=
  ∀ s, let t := engineStep s
    (s.slv.sreg.wf = true → s.mode = .txOpen → s.eng.txrdy = false →
      t = { s with eng := { s.eng with txrdy := true }, slv := t.slv, wire := s.wire ++ [.dw s.eng.txbuf, .ackS] } ∧
      (s.slv.first = true → t.slv = { s.slv with ptr := s.eng.txbuf, first := false }) ∧
      (s.slv.first = false → t.slv.ptr = s.slv.ptr + 1 ∧ t.slv.first = false ∧
        ∀ a, t.slv.sreg.read a = if a = s.slv.ptr.toNat then s.eng.txbuf else s.slv.sreg.read a)) ∧
    (s.mode = .rxOpen → s.eng.rxrdy = false →
      let b := s.slv.sreg.read s.slv.ptr.toNat
      (s.eng.stp = true → t = { s with
        eng := { s.eng with rxbuf := b, rxrdy := true, stp := false, busy := false }
        slv := { s.slv with ptr := s.slv.ptr + 1 }, mode := .idle, wire := s.wire ++ [.dr b, .nackM, .p] }) ∧
      (s.eng.stp = false → t = { s with
        eng := { s.eng with rxbuf := b, rxrdy := true }
        slv := { s.slv with ptr := s.slv.ptr + 1 }, wire := s.wire ++ [.dr b, .ackM] })) ∧
    (s.mode = .idle → s.eng.stt = true → s.eng.tr = true →
      (s.eng.sa = s.cfg.slvAddr → t = { s with
        eng := { s.eng with busy := true, stt := false, txrdy := true }
        slv := { s.slv with first := true }, mode := .txOpen, wire := s.wire ++ [.s, .ad s.eng.sa false, .ackS] }) ∧
      (s.eng.sa ≠ s.cfg.slvAddr → t = { s with
        eng := { s.eng with busy := true }, mode := .dead, wire := s.wire ++ [.s, .ad s.eng.sa false, .nackS] })) ∧
    (s.mode = .txOpen → s.eng.txrdy = true → s.eng.stt = true → s.eng.tr = false → t = { s with
      eng := { s.eng with stt := false, txrdy := false }, mode := .rxOpen
      wire := s.wire ++ [.sr, .ad s.eng.sa true, .ackS] }) ∧
    (s.mode = .txOpen → s.eng.txrdy = true → s.eng.stp = true → s.eng.stt = false → t = { s with
      eng := { s.eng with stp := false, busy := false, txrdy := false }, mode := .idle, wire := s.wire ++ [.p] })

/-- The slave's registers change only by the engine and by the slave's own environment. That the unconstrained engine's
event leaves the slave as well is the model's choice (log 13). -/
def Obligations.SlaveChangesOnlyByEngineAndEnvironment : Prop :=
  ∀ s t, step s = .next t → s.nextEvent ≠ .engine → (∀ a v, s.nextEvent ≠ .slaveSets a v) → t.slv = s.slv

/-! ### Invariants -/

/-- Every step keeps the machine's invariant. -/
def Obligations.StepKeepsTheInvariant : Prop :=
  ∀ s t, MachineInv s → step s = .next t → MachineInv t

/-- The invariants hold after reset, for every well-formed build. -/
def Obligations.ResetMeetsTheInvariants : Prop :=
  ∀ c : Config, c.wellFormed = true →
    MachineInv { State.reset with cfg := c } ∧ OutInv { State.reset with cfg := c } ∧
    BusInv { State.reset with cfg := c } ∧ State.reset.slv.sreg.wf = true

/-- Under the invariant no step stops the model: it answers a next state. -/
def Obligations.InvariantStatesNeverStop : Prop :=
  ∀ s, MachineInv s → ∃ t, step s = .next t

/-- Every step keeps the slave's memory in canonical form and the build as it is. -/
def Obligations.StepKeepsTheMemoryCanonical : Prop :=
  ∀ s t, s.slv.sreg.wf = true → step s = .next t → t.slv.sreg.wf = true ∧ t.cfg = s.cfg
end

