-- ==== Sys2Proof/Laws/Contract.lean ====
section
/-! SUPPORT. What the engine contract (spec/20_memory.md R72 to R82) lets an admissible engine do, and what it forbids. -/

namespace Sys2Proof.Machine

/-- A transaction is open on the bus. -/
def Link.isOpen : Link → Bool
  | .uninit => false
  | .closed => false
  | .started => true
  | .addressed => true
  | .transmit => true
  | .sent => true
  | .receive => true
  | .dead => true

/-! ### One move -/

/-- R73: no move changes SA, TR or TXBUF, or sets STT or STP. -/
theorem EngineMove.ownership {l l' e e' w} (h : EngineMove l e w l' e') (hl : l ≠ .uninit) :
    l' ≠ .uninit ∧ e'.sa = e.sa ∧ e'.tr = e.tr ∧ e'.txbuf = e.txbuf ∧
      (e'.stt = true → e.stt = true) ∧ (e'.stp = true → e.stp = true) := by
  cases h <;> simp_all

/-- R74: BUSY stays 1 exactly while a transaction is open. -/
theorem EngineMove.busy {l l' e e' w} (h : EngineMove l e w l' e') (hl : l ≠ .uninit)
    (hb : e.busy = l.isOpen) : e'.busy = l'.isOpen := by
  cases h <;> simp_all [Link.isOpen]

/-- R73: no move while closed with STT = 0. -/
theorem EngineMove.not_closed {l' e e' w} (h : EngineMove .closed e w l' e') : e.stt = true := by
  cases h; assumption

/-- R81: no move after `NACK_s` or no answer. -/
theorem EngineMove.not_dead {l' e e' w} : ¬ EngineMove .dead e w l' e' := nofun

/-- R79: no move in receive mode while RXRDY = 1. -/
theorem EngineMove.not_holding {l' e e' w} (h : EngineMove .receive e w l' e') : e.rxrdy = false := by
  cases h <;> assumption

/-- R75, R76, R78: no move in transmit mode with TXRDY = 1 and neither a START nor a STOP requested. -/
theorem EngineMove.transmit_cases {l' e e' w} (h : EngineMove .transmit e w l' e') :
    e.txrdy = false ∨ e.stt = true ∨ e.stp = true := by
  cases h <;> simp_all

/-- R75: a START comes only when one is requested, and a repeated one only with no byte of a transmission unsent and none
received untaken. -/
theorem EngineMove.start_requested {l l' e e' w} (h : EngineMove l e w l' e') (hl : l ≠ .uninit) :
    (.s ∈ w → l = .closed ∧ e.stt = true) ∧
    (.sr ∈ w → e.stt = true ∧ (l = .transmit ∧ e.txrdy = true ∨ l = .receive ∧ e.rxrdy = false)) := by
  cases h <;> simp_all

/-- R76: a byte sent is TXBUF, in transmit mode, with TXRDY = 0. -/
theorem EngineMove.sends_txbuf {l l' e e' w} (h : EngineMove l e w l' e') (hl : l ≠ .uninit) (b : Byte)
    (hb : .dw b ∈ w) : l = .transmit ∧ e.txrdy = false ∧ b = e.txbuf ∧ l' = .sent := by
  cases h <;> simp_all

/-- R78, R80: STOP comes only when it is requested; it closes the transaction and clears STP and BUSY. -/
theorem EngineMove.stop_requested {l l' e e' w} (h : EngineMove l e w l' e') (hl : l ≠ .uninit) (hp : .p ∈ w) :
    e.stp = true ∧ e'.stp = false ∧ e'.busy = false ∧ l' = .closed := by
  cases h <;> simp_all

/-- R79, R80: a byte is received only into an empty RXBUF, in receive mode, and answered in the same move by NACK and STOP
exactly when STP = 1. -/
theorem EngineMove.answers_received {l l' e e' w} (h : EngineMove l e w l' e') (hl : l ≠ .uninit) (b : Byte)
    (hb : .dr b ∈ w) : l = .receive ∧ e.tr = false ∧ e.stt = false ∧ e.rxrdy = false ∧ e'.rxrdy = true ∧ e'.rxbuf = b ∧
      w = .dr b :: if e.stp then [.nackM, .p] else [.ackM] := by
  cases h <;> simp_all

/-- R82: RXBUF and RXRDY change only by a reception. -/
theorem EngineMove.keeps_rxbuf {l l' e e' w} (h : EngineMove l e w l' e') (hl : l ≠ .uninit)
    (hb : ∀ b, .dr b ∉ w) : e'.rxbuf = e.rxbuf ∧ e'.rxrdy = e.rxrdy := by
  cases h <;> simp_all

/-! ### A step: any number of moves -/

/-- R73, over a step. -/
theorem EngineContract.ownership {l l' e e' w} (h : EngineContract l e w l' e') (hl : l ≠ .uninit) :
    l' ≠ .uninit ∧ e'.sa = e.sa ∧ e'.tr = e.tr ∧ e'.txbuf = e.txbuf ∧
      (e'.stt = true → e.stt = true) ∧ (e'.stp = true → e.stp = true) := by
  induction h with
  | rest => exact ⟨hl, rfl, rfl, rfl, id, id⟩
  | move m _ ih =>
    obtain ⟨h0, h1, h2, h3, h4, h5⟩ := m.ownership hl
    obtain ⟨g0, g1, g2, g3, g4, g5⟩ := ih h0
    exact ⟨g0, g1.trans h1, g2.trans h2, g3.trans h3, h4 ∘ g4, h5 ∘ g5⟩

/-- R74, over a step. -/
theorem EngineContract.busy {l l' e e' w} (h : EngineContract l e w l' e') (hl : l ≠ .uninit)
    (hb : e.busy = l.isOpen) : e'.busy = l'.isOpen := by
  induction h with
  | rest => exact hb
  | move m _ ih => exact ih (m.ownership hl).1 (m.busy hl hb)

/-- A step from where no move is possible changes nothing. -/
theorem EngineContract.of_stuck {l l' e e' w} (h : EngineContract l e w l' e')
    (hs : ∀ l₁ e₁ w₁, ¬ EngineMove l e w₁ l₁ e₁) : l' = l ∧ e' = e ∧ w = [] := by
  cases h with
  | rest => exact ⟨rfl, rfl, rfl⟩
  | move m _ => exact absurd m (hs _ _ _)

/-- R73: the engine takes no step while no transaction is open and STT = 0. -/
theorem EngineContract.quiescent {l' e e' w} (h : EngineContract .closed e w l' e') (hs : e.stt = false) :
    l' = .closed ∧ e' = e ∧ w = [] :=
  h.of_stuck fun _ _ _ m => by simpa [hs] using m.not_closed

/-- R81: after `NACK_s` or no answer the engine changes nothing, ever. -/
theorem EngineContract.dead_forever {l' e e' w} (h : EngineContract .dead e w l' e') :
    l' = .dead ∧ e' = e ∧ w = [] :=
  h.of_stuck fun _ _ _ => EngineMove.not_dead

/-- R79: while RXRDY = 1 the engine holds the bus. -/
theorem EngineContract.holds {l' e e' w} (h : EngineContract .receive e w l' e') (hr : e.rxrdy = true) :
    l' = .receive ∧ e' = e ∧ w = [] :=
  h.of_stuck fun _ _ _ m => by simpa [hr] using m.not_holding

/-- R76, R78: with TXRDY = 1 and nothing requested the engine waits. -/
theorem EngineContract.waits_ready {l' e e' w} (h : EngineContract .transmit e w l' e') (hr : e.txrdy = true)
    (ht : e.stt = false) (hp : e.stp = false) : l' = .transmit ∧ e' = e ∧ w = [] :=
  h.of_stuck fun _ _ _ m => by simpa [hr, ht, hp] using m.transmit_cases

end Sys2Proof.Machine
end

