-- ==== Sys2Proof/Laws/Encoding.lean ====
section
/-! SUPPORT. The bits of a command word and its fields. -/

namespace Sys2Proof

/-- Bit `i` of a command word given by its fields. -/
theorem commandWord_getLsbD (opc a b c : Byte) (i : Nat) :
    (commandWord opc a b c).getLsbD i =
      if i < 8 then c.getLsbD i
      else if i < 16 then b.getLsbD (i - 8)
      else if i < 24 then a.getLsbD (i - 16)
      else opc.getLsbD (i - 24) := by
  simp only [commandWord, BitVec.getLsbD_or, BitVec.getLsbD_shiftLeft, BitVec.getLsbD_setWidth]
  by_cases h8 : i < 8
  · have h1 : i < 32 := by omega
    have h2 : i < 16 := by omega
    have h3 : i < 24 := by omega
    simp [h8, h1, h2, h3]
  · have hc : c.getLsbD i = false := BitVec.getLsbD_of_ge _ _ (by omega)
    by_cases h16 : i < 16
    · have h1 : i < 32 := by omega
      have h3 : i < 24 := by omega
      have h4 : i - 8 < 32 := by omega
      simp [h8, h16, h1, h3, h4, hc]
    · have hb : b.getLsbD (i - 8) = false := BitVec.getLsbD_of_ge _ _ (by omega)
      by_cases h24 : i < 24
      · have h1 : i < 32 := by omega
        have h4 : i - 16 < 32 := by omega
        simp [h8, h16, h24, h1, h4, hc, hb]
      · have ha : a.getLsbD (i - 16) = false := BitVec.getLsbD_of_ge _ _ (by omega)
        by_cases h32 : i < 32
        · have h4 : i - 24 < 32 := by omega
          simp [h8, h16, h24, h32, h4, hc, hb, ha]
        · have ho : opc.getLsbD (i - 24) = false := BitVec.getLsbD_of_ge _ _ (by omega)
          simp [h8, h16, h24, h32, hc, hb, ha, ho]

@[simp] theorem opcField_commandWord (opc a b c : Byte) : opcField (commandWord opc a b c) = opc := by
  refine BitVec.eq_of_getLsbD_eq fun i hi => ?_
  have h8 : ¬ 24 + i < 8 := by omega
  have h16 : ¬ 24 + i < 16 := by omega
  have h24 : ¬ 24 + i < 24 := by omega
  simp [opcField, commandWord_getLsbD, hi, h8, h16]

@[simp] theorem aField_commandWord (opc a b c : Byte) : aField (commandWord opc a b c) = a := by
  refine BitVec.eq_of_getLsbD_eq fun i hi => ?_
  have h8 : ¬ 16 + i < 8 := by omega
  have h24 : 16 + i < 24 := by omega
  simp [aField, commandWord_getLsbD, hi, h8, h24]

@[simp] theorem bField_commandWord (opc a b c : Byte) : bField (commandWord opc a b c) = b := by
  refine BitVec.eq_of_getLsbD_eq fun i hi => ?_
  have h16 : 8 + i < 16 := by omega
  simp [bField, commandWord_getLsbD, hi, h16]

@[simp] theorem cField_commandWord (opc a b c : Byte) : cField (commandWord opc a b c) = c := by
  refine BitVec.eq_of_getLsbD_eq fun i hi => ?_
  simp [cField, commandWord_getLsbD, hi]

/-- Every word is the command word of its own fields. -/
theorem commandWord_fields (w : Word) : commandWord (opcField w) (aField w) (bField w) (cField w) = w := by
  refine BitVec.eq_of_getLsbD_eq fun i hi => ?_
  rw [commandWord_getLsbD]
  simp only [opcField, aField, bField, cField, BitVec.getLsbD_extractLsb']
  split
  · rename_i h
    simp [h]
  · split
    · rename_i h1 h2
      have h3 : i - 8 < 8 := by omega
      have h4 : 8 + (i - 8) = i := by omega
      simp [h3, h4]
    · split
      · rename_i h1 h2 h3
        have h4 : i - 16 < 8 := by omega
        have h5 : 16 + (i - 16) = i := by omega
        simp [h4, h5]
      · rename_i h1 h2 h3
        have h4 : i - 24 < 8 := by omega
        have h5 : 24 + (i - 24) = i := by omega
        simp [h4, h5]

/-- Command words are masked field by field. -/
theorem commandWord_and (o a b c o' a' b' c' : Byte) :
    commandWord o a b c &&& commandWord o' a' b' c'
      = commandWord (o &&& o') (a &&& a') (b &&& b') (c &&& c') := by
  refine BitVec.eq_of_getLsbD_eq fun i _ => ?_
  simp only [BitVec.getLsbD_and, commandWord_getLsbD]
  split
  · rfl
  · split
    · rfl
    · split <;> rfl

end Sys2Proof
end

