-- ==== Sys2Proof/Machine/HostProc.lean ====
section
/-! DEFINITION. Host procedures: the pseudo-instructions (spec/30_encoding.md R120), SINIT and CALZ
(spec/41_sensor_sfu.md R205 to R209), and how the host runs one on the machine (spec/10_state.md R44). The block does not
execute them; the host issues their requests, and may let a request depend on what an earlier read returned. The
real-time waits in them are outside the model (log 15, log 19). -/

namespace Sys2Proof.Machine

/-! ### Host procedures -/

/-- A host procedure: it ends with a result, or makes a request and goes on with `h_rdata` as it stands once the request
has been served (R44; R45: the value read, for a read). -/
inductive HostProg (α : Type) where
  | done (a : α)
  | request (r : HostReq) (next : Word → HostProg α)

/-- The requests `rs` in order, whatever they return, and then `p`. -/
def HostProg.after {α : Type} (rs : List HostReq) (p : HostProg α) : HostProg α :=
  rs.foldr (fun r q => .request r (fun _ => q)) p

/-- A read of each offset in order; `k` goes on with the words read. -/
def HostProg.readAll {α : Type} : List (BitVec 8) → (List Word → HostProg α) → HostProg α
  | [], k => k []
  | off :: offs, k => .request (.read off) (fun w => HostProg.readAll offs (fun ws => k (w :: ws)))

/-- The requests a procedure makes where the port's read data after each is as listed, and its result once it ends. -/
def HostProg.replay {α : Type} : HostProg α → List Word → List HostReq × Option α
  | .done a, _ => ([], some a)
  | .request r _, [] => ([r], none)
  | .request r k, w :: ws => (r :: ((k w).replay ws).1, ((k w).replay ws).2)

/-- The host runs a procedure: from `s` the machine comes to `t` with the result `a`. A request is served only while SBMC is
idle, and held otherwise (R44); the other agents step at any time in between (R11). -/
inductive HostRuns {α : Type} : HostProg α → State → State → α → Prop where
  | done (a : α) (s : State) : HostRuns (.done a) s s a
  | served {r : HostReq} {k : Word → HostProg α} {s t u : State} {a : α} :
      s.idle = true → hostAccess r s = .next t → HostRuns (k t.hrdata) t u a → HostRuns (.request r k) s u a
  | meanwhile {p : HostProg α} {ev : Event} {s t u : State} {a : α} :
      ev ≠ .host → perform ev s = .next t → HostRuns p t u a → HostRuns p s u a

/-! ### The pseudo-instructions -/

/-- A host write of a command to CMD (R112, R119). -/
def issue (i : Instr) : HostReq := .write 0x00 (encode i)

/-- The byte offset of `TXB[k]` (R20). -/
def txbOffset (k : Nat) : BitVec 8 := BitVec.ofNat 8 (0x40 + 4 * k)

/-- The byte offset of `RXB[k]` (R20). -/
def rxbOffset (k : Nat) : BitVec 8 := BitVec.ofNat 8 (0x80 + 4 * k)

/-- `writeBytes(data[], length)` (R120): fill TXB, then WRBS. DESIGN CHOICE (log 25): the TXB writes go in rising index,
where R120 allows any order; and more than 16 bytes, for which the map has no register, go on at the next offsets in 8
bits, so that the write of byte 16 is at RXB[0] and raises HACC, with the length taken modulo 256. -/
def procWriteBytes (data : List Byte) : List HostReq :=
  data.mapIdx (fun k b => .write (txbOffset k) (zext32 b)) ++ [issue (.wrbs (BitVec.ofNat 8 data.length))]

/-- `readRegister(addr) -> byte` (R120): the byte is `RES[7:0]`. -/
def procReadRegister (addr : Byte) : HostProg Byte :=
  .after [issue (.rdr addr)] (.request (.read 0x10) (fun w => .done (w.extractLsb' 0 8)))

/-- `readRegisters(firstAddr, count) -> bytes[count]` (R120). DESIGN CHOICE (log 25): the reads past RXB[15], for which the
map has no register, go on at the next offsets in 8 bits. -/
def procReadRegisters (firstAddr count : Byte) : HostProg (List Byte) :=
  .after [issue (.rdrs firstAddr count)]
    (.readAll ((List.range count.toNat).map rxbOffset) (fun ws => .done (ws.map (fun w => w.extractLsb' 0 8))))

/-- A per-axis triple of host integers (R207). -/
structure Triple where
  x : Int
  y : Int
  z : Int
  deriving DecidableEq, Repr

/-- Reads of SX, SY and SZ, as signed integers (R8, R27, R207). -/
def readSample {α : Type} (k : Triple → HostProg α) : HostProg α :=
  .request (.read 0x24) (fun x => .request (.read 0x28) (fun y => .request (.read 0x2C) (fun z =>
    k { x := x.toInt, y := y.toInt, z := z.toInt })))

/-- `readXYZ() -> (x, y, z, status)` (R120). -/
def procReadXYZ : HostProg (Triple × Byte) :=
  .after [issue .rdxyz]
    (readSample (fun s => .request (.read 0x30) (fun w => .done (s, w.extractLsb' 0 8))))

/-- `updateVelocity(accel, prevVelocity, dt)` (R120); `dt` is the build's DT. -/
def procUpdateVelocity (accel prevVelocity : Word) : HostProg Word :=
  .after [.write 0x18 accel, .write 0x1C prevVelocity, issue .updv] (.request (.read 0x1C) .done)

/-- `updateDistance(velocity, prevDistance, dt)` (R120). -/
def procUpdateDistance (velocity prevDistance : Word) : HostProg Word :=
  .after [.write 0x1C velocity, .write 0x20 prevDistance, issue .updd] (.request (.read 0x20) .done)

/-! ### SINIT and CALZ -/

/-- SINIT (R206), after the host has waited PWR_SETTLE. -/
def procSinit (c : Config) : List HostReq :=
  [issue .initm, issue (.setsa c.params.sensorAddr), issue (.wrr c.params.regCtrl c.params.valActive)]

/-- The offsets after one pass that read sample `s` (R207), indexed per axis (R208). -/
def calzAccumulate (ofs s : Triple) : Triple :=
  { x := ofs.x + (0 - s.x), y := ofs.y + (0 - s.y), z := ofs.z + (256 - s.z) }

/-- The low 8 bits of an offset in two's complement (R207). -/
def offsetByte (v : Int) : Byte := BitVec.ofInt 8 v

/-- The first half of a CALZ pass: the mode switch, and, after CAL_SETTLE, `RDXYZ` (R207). -/
def procCalzSample (c : Config) : List HostReq :=
  [issue (.wrr c.params.regCtrl c.params.valCal), issue .rdxyz]

/-- The second half of a CALZ pass: the accumulated offsets to the device's offset registers (R207). DESIGN CHOICE (log
26): `REG_OFS0 + 1` and `REG_OFS0 + 2` are register addresses, so 8 bits, and wrap past 255 to 0. -/
def procCalzStore (c : Config) (ofs : Triple) : List HostReq :=
  [issue (.wrr c.params.regOfs0 (offsetByte ofs.x)),
   issue (.wrr (c.params.regOfs0 + 1) (offsetByte ofs.y)),
   issue (.wrr (c.params.regOfs0 + 2) (offsetByte ofs.z))]

/-- One pass of CALZ from the offsets `ofs` (R207): the sample is what SX, SY and SZ read as after the pass's RDXYZ, and
the new offsets are computed from it and stored; `k` goes on with them. -/
def procCalzPass {α : Type} (c : Config) (ofs : Triple) (k : Triple → HostProg α) : HostProg α :=
  .after (procCalzSample c) (readSample (fun s =>
    .after (procCalzStore c (calzAccumulate ofs s)) (k (calzAccumulate ofs s))))

/-- CALZ (R207): two passes, the second accumulating on the first, and the active mode restored once, after both. Its
result is the computed offsets. -/
def procCalz (c : Config) : HostProg Triple :=
  procCalzPass c { x := 0, y := 0, z := 0 } (fun o1 => procCalzPass c o1 (fun o2 =>
    .after [issue (.wrr c.params.regCtrl c.params.valActive)] (.done o2)))

end Sys2Proof.Machine
end

