-- ==== Sys2Proof/Laws/HostProc.lean ====
section
/-! SUPPORT. Host procedures: what a served read returns, and what CALZ computes (spec/41_sensor_sfu.md R207, R208). -/

namespace Sys2Proof.Machine

/-- A procedure given the reads of a sample goes on with the signed integers read. -/
@[simp] theorem readSample_replay {α : Type} (k : Triple → HostProg α) (x y z : Word) (ws : List Word) :
    (readSample k).replay (x :: y :: z :: ws) =
      ([.read 0x24, .read 0x28, .read 0x2C] ++ ((k ⟨x.toInt, y.toInt, z.toInt⟩).replay ws).1,
        ((k ⟨x.toInt, y.toInt, z.toInt⟩).replay ws).2) := rfl

/-- The three reads of a sample return SX, SY and SZ as they stand (R45). -/
theorem hostAccess_sample (s : State) :
    hostAccess (.read 0x24) s = .next { s with hrdata := s.sx } ∧
    hostAccess (.read 0x28) s = .next { s with hrdata := s.sy } ∧
    hostAccess (.read 0x2C) s = .next { s with hrdata := s.sz } := ⟨rfl, rfl, rfl⟩

/-- Read at once in an idle state, a sample is SX, SY and SZ as signed integers. -/
theorem readSample_runs {α : Type} {k : Triple → HostProg α} {s u : State} {a : α} (hi : s.idle = true)
    (h : HostRuns (k ⟨s.sx.toInt, s.sy.toInt, s.sz.toInt⟩) { s with hrdata := s.sz } u a) :
    HostRuns (readSample k) s u a :=
  .served hi (hostAccess_sample s).1 (.served hi (hostAccess_sample _).2.1 (.served hi (hostAccess_sample _).2.2 h))

/-- CALZ with the samples `(x₁, y₁, z₁)` and `(x₂, y₂, z₂)` computes the per-axis offsets of both passes. -/
theorem procCalz_offsets (c : Config) (x₁ y₁ z₁ x₂ y₂ z₂ a b d e f g h i j k l : Word) :
    ((procCalz c).replay ([a, b, x₁, y₁, z₁, d, e, f] ++ [g, h, x₂, y₂, z₂, i, j, k] ++ [l])).2 =
      some ⟨-x₁.toInt - x₂.toInt, -y₁.toInt - y₂.toInt, 512 - z₁.toInt - z₂.toInt⟩ := by
  show some (calzAccumulate (calzAccumulate ⟨0, 0, 0⟩ ⟨x₁.toInt, y₁.toInt, z₁.toInt⟩) ⟨x₂.toInt, y₂.toInt, z₂.toInt⟩) = _
  simp only [calzAccumulate, Option.some.injEq, Triple.mk.injEq]
  omega

end Sys2Proof.Machine
end

