-- ==== Sys2Proof/Laws/State.lean ====
section
/-! SUPPORT. One lemma per field per named update of the state, each true by unfolding. -/

namespace Sys2Proof.Machine

/-! ### `raise` (R281) -/

@[simp] theorem raise_cfg (c : FaultCode) (i : Word) (s : State) : (raise c i s).cfg = s.cfg := rfl
@[simp] theorem raise_tickPend (c : FaultCode) (i : Word) (s : State) : (raise c i s).tickPend = s.tickPend := rfl
@[simp] theorem raise_tickOvr (c : FaultCode) (i : Word) (s : State) : (raise c i s).tickOvr = s.tickOvr := rfl
@[simp] theorem raise_fault (c : FaultCode) (i : Word) (s : State) : (raise c i s).fault = s.fault ||| c.bit := rfl
@[simp] theorem raise_finfo (c : FaultCode) (i : Word) (s : State) : (raise c i s).finfo = i := rfl
@[simp] theorem raise_res (c : FaultCode) (i : Word) (s : State) : (raise c i s).res = s.res := rfl
@[simp] theorem raise_sa (c : FaultCode) (i : Word) (s : State) : (raise c i s).sa = s.sa := rfl
@[simp] theorem raise_saValid (c : FaultCode) (i : Word) (s : State) : (raise c i s).saValid = s.saValid := rfl
@[simp] theorem raise_initDone (c : FaultCode) (i : Word) (s : State) : (raise c i s).initDone = s.initDone := rfl
@[simp] theorem raise_acc (c : FaultCode) (i : Word) (s : State) : (raise c i s).acc = s.acc := rfl
@[simp] theorem raise_vel (c : FaultCode) (i : Word) (s : State) : (raise c i s).vel = s.vel := rfl
@[simp] theorem raise_dist (c : FaultCode) (i : Word) (s : State) : (raise c i s).dist = s.dist := rfl
@[simp] theorem raise_sx (c : FaultCode) (i : Word) (s : State) : (raise c i s).sx = s.sx := rfl
@[simp] theorem raise_sy (c : FaultCode) (i : Word) (s : State) : (raise c i s).sy = s.sy := rfl
@[simp] theorem raise_sz (c : FaultCode) (i : Word) (s : State) : (raise c i s).sz = s.sz := rfl
@[simp] theorem raise_sst (c : FaultCode) (i : Word) (s : State) : (raise c i s).sst = s.sst := rfl
@[simp] theorem raise_sum (c : FaultCode) (i : Word) (s : State) : (raise c i s).sum = s.sum := rfl
@[simp] theorem raise_scnt (c : FaultCode) (i : Word) (s : State) : (raise c i s).scnt = s.scnt := rfl
@[simp] theorem raise_phase (c : FaultCode) (i : Word) (s : State) : (raise c i s).phase = s.phase := rfl
@[simp] theorem raise_run (c : FaultCode) (i : Word) (s : State) : (raise c i s).run = s.run := rfl
@[simp] theorem raise_ramp (c : FaultCode) (i : Word) (s : State) : (raise c i s).ramp = s.ramp := rfl
@[simp] theorem raise_dwell (c : FaultCode) (i : Word) (s : State) : (raise c i s).dwell = s.dwell := rfl
@[simp] theorem raise_txb (c : FaultCode) (i : Word) (s : State) : (raise c i s).txb = s.txb := rfl
@[simp] theorem raise_rxb (c : FaultCode) (i : Word) (s : State) : (raise c i s).rxb = s.rxb := rfl
@[simp] theorem raise_ulist (c : FaultCode) (i : Word) (s : State) : (raise c i s).ulist = s.ulist := rfl
@[simp] theorem raise_btcStep (c : FaultCode) (i : Word) (s : State) : (raise c i s).btcStep = s.btcStep := rfl
@[simp] theorem raise_btcXyz (c : FaultCode) (i : Word) (s : State) : (raise c i s).btcXyz = s.btcXyz := rfl
@[simp] theorem raise_tpc (c : FaultCode) (i : Word) (s : State) : (raise c i s).tpc = .wait := rfl
@[simp] theorem raise_srep (c : FaultCode) (i : Word) (s : State) : (raise c i s).srep = 0 := rfl
@[simp] theorem raise_emitq (c : FaultCode) (i : Word) (s : State) : (raise c i s).emitq = [] := rfl
@[simp] theorem raise_eng (c : FaultCode) (i : Word) (s : State) : (raise c i s).eng = s.eng := rfl
@[simp] theorem raise_mode (c : FaultCode) (i : Word) (s : State) : (raise c i s).mode = s.mode := rfl
@[simp] theorem raise_slv (c : FaultCode) (i : Word) (s : State) : (raise c i s).slv = s.slv := rfl
@[simp] theorem raise_otx (c : FaultCode) (i : Word) (s : State) : (raise c i s).otx = s.otx := rfl
@[simp] theorem raise_act (c : FaultCode) (i : Word) (s : State) : (raise c i s).act = s.act := rfl
@[simp] theorem raise_wire (c : FaultCode) (i : Word) (s : State) : (raise c i s).wire = s.wire := rfl
@[simp] theorem raise_out (c : FaultCode) (i : Word) (s : State) : (raise c i s).out = s.out := rfl
@[simp] theorem raise_hrdata (c : FaultCode) (i : Word) (s : State) : (raise c i s).hrdata = s.hrdata := rfl
@[simp] theorem raise_hostq (c : FaultCode) (i : Word) (s : State) : (raise c i s).hostq = s.hostq := rfl
@[simp] theorem raise_sched (c : FaultCode) (i : Word) (s : State) : (raise c i s).sched = s.sched := rfl
@[simp] theorem raise_draws (c : FaultCode) (i : Word) (s : State) : (raise c i s).draws = s.draws := rfl

/-! ### `loadList` (R112) -/

@[simp] theorem loadList_cfg (l : List MicroOp) (s : State) : (loadList l s).cfg = s.cfg := rfl
@[simp] theorem loadList_tickPend (l : List MicroOp) (s : State) : (loadList l s).tickPend = s.tickPend := rfl
@[simp] theorem loadList_tickOvr (l : List MicroOp) (s : State) : (loadList l s).tickOvr = s.tickOvr := rfl
@[simp] theorem loadList_fault (l : List MicroOp) (s : State) : (loadList l s).fault = s.fault := rfl
@[simp] theorem loadList_finfo (l : List MicroOp) (s : State) : (loadList l s).finfo = s.finfo := rfl
@[simp] theorem loadList_res (l : List MicroOp) (s : State) : (loadList l s).res = s.res := rfl
@[simp] theorem loadList_sa (l : List MicroOp) (s : State) : (loadList l s).sa = s.sa := rfl
@[simp] theorem loadList_saValid (l : List MicroOp) (s : State) : (loadList l s).saValid = s.saValid := rfl
@[simp] theorem loadList_initDone (l : List MicroOp) (s : State) : (loadList l s).initDone = s.initDone := rfl
@[simp] theorem loadList_acc (l : List MicroOp) (s : State) : (loadList l s).acc = s.acc := rfl
@[simp] theorem loadList_vel (l : List MicroOp) (s : State) : (loadList l s).vel = s.vel := rfl
@[simp] theorem loadList_dist (l : List MicroOp) (s : State) : (loadList l s).dist = s.dist := rfl
@[simp] theorem loadList_sx (l : List MicroOp) (s : State) : (loadList l s).sx = s.sx := rfl
@[simp] theorem loadList_sy (l : List MicroOp) (s : State) : (loadList l s).sy = s.sy := rfl
@[simp] theorem loadList_sz (l : List MicroOp) (s : State) : (loadList l s).sz = s.sz := rfl
@[simp] theorem loadList_sst (l : List MicroOp) (s : State) : (loadList l s).sst = s.sst := rfl
@[simp] theorem loadList_sum (l : List MicroOp) (s : State) : (loadList l s).sum = s.sum := rfl
@[simp] theorem loadList_scnt (l : List MicroOp) (s : State) : (loadList l s).scnt = s.scnt := rfl
@[simp] theorem loadList_phase (l : List MicroOp) (s : State) : (loadList l s).phase = s.phase := rfl
@[simp] theorem loadList_run (l : List MicroOp) (s : State) : (loadList l s).run = s.run := rfl
@[simp] theorem loadList_ramp (l : List MicroOp) (s : State) : (loadList l s).ramp = s.ramp := rfl
@[simp] theorem loadList_dwell (l : List MicroOp) (s : State) : (loadList l s).dwell = s.dwell := rfl
@[simp] theorem loadList_txb (l : List MicroOp) (s : State) : (loadList l s).txb = s.txb := rfl
@[simp] theorem loadList_rxb (l : List MicroOp) (s : State) : (loadList l s).rxb = s.rxb := rfl
@[simp] theorem loadList_ulist (l : List MicroOp) (s : State) : (loadList l s).ulist = l := rfl
@[simp] theorem loadList_btcStep (l : List MicroOp) (s : State) : (loadList l s).btcStep = 1 := rfl
@[simp] theorem loadList_btcXyz (l : List MicroOp) (s : State) : (loadList l s).btcXyz = false := rfl
@[simp] theorem loadList_tpc (l : List MicroOp) (s : State) : (loadList l s).tpc = s.tpc := rfl
@[simp] theorem loadList_srep (l : List MicroOp) (s : State) : (loadList l s).srep = s.srep := rfl
@[simp] theorem loadList_emitq (l : List MicroOp) (s : State) : (loadList l s).emitq = s.emitq := rfl
@[simp] theorem loadList_eng (l : List MicroOp) (s : State) : (loadList l s).eng = s.eng := rfl
@[simp] theorem loadList_mode (l : List MicroOp) (s : State) : (loadList l s).mode = s.mode := rfl
@[simp] theorem loadList_slv (l : List MicroOp) (s : State) : (loadList l s).slv = s.slv := rfl
@[simp] theorem loadList_otx (l : List MicroOp) (s : State) : (loadList l s).otx = s.otx := rfl
@[simp] theorem loadList_act (l : List MicroOp) (s : State) : (loadList l s).act = s.act := rfl
@[simp] theorem loadList_wire (l : List MicroOp) (s : State) : (loadList l s).wire = s.wire := rfl
@[simp] theorem loadList_out (l : List MicroOp) (s : State) : (loadList l s).out = s.out := rfl
@[simp] theorem loadList_hrdata (l : List MicroOp) (s : State) : (loadList l s).hrdata = s.hrdata := rfl
@[simp] theorem loadList_hostq (l : List MicroOp) (s : State) : (loadList l s).hostq = s.hostq := rfl
@[simp] theorem loadList_sched (l : List MicroOp) (s : State) : (loadList l s).sched = s.sched := rfl
@[simp] theorem loadList_draws (l : List MicroOp) (s : State) : (loadList l s).draws = s.draws := rfl

/-! ### `loadSampleRead` (R191) -/

@[simp] theorem loadSampleRead_cfg (l : List MicroOp) (s : State) : (loadSampleRead l s).cfg = s.cfg := rfl
@[simp] theorem loadSampleRead_tickPend (l : List MicroOp) (s : State) : (loadSampleRead l s).tickPend = s.tickPend := rfl
@[simp] theorem loadSampleRead_tickOvr (l : List MicroOp) (s : State) : (loadSampleRead l s).tickOvr = s.tickOvr := rfl
@[simp] theorem loadSampleRead_fault (l : List MicroOp) (s : State) : (loadSampleRead l s).fault = s.fault := rfl
@[simp] theorem loadSampleRead_finfo (l : List MicroOp) (s : State) : (loadSampleRead l s).finfo = s.finfo := rfl
@[simp] theorem loadSampleRead_res (l : List MicroOp) (s : State) : (loadSampleRead l s).res = s.res := rfl
@[simp] theorem loadSampleRead_sa (l : List MicroOp) (s : State) : (loadSampleRead l s).sa = s.sa := rfl
@[simp] theorem loadSampleRead_saValid (l : List MicroOp) (s : State) : (loadSampleRead l s).saValid = s.saValid := rfl
@[simp] theorem loadSampleRead_initDone (l : List MicroOp) (s : State) : (loadSampleRead l s).initDone = s.initDone := rfl
@[simp] theorem loadSampleRead_acc (l : List MicroOp) (s : State) : (loadSampleRead l s).acc = s.acc := rfl
@[simp] theorem loadSampleRead_vel (l : List MicroOp) (s : State) : (loadSampleRead l s).vel = s.vel := rfl
@[simp] theorem loadSampleRead_dist (l : List MicroOp) (s : State) : (loadSampleRead l s).dist = s.dist := rfl
@[simp] theorem loadSampleRead_sx (l : List MicroOp) (s : State) : (loadSampleRead l s).sx = s.sx := rfl
@[simp] theorem loadSampleRead_sy (l : List MicroOp) (s : State) : (loadSampleRead l s).sy = s.sy := rfl
@[simp] theorem loadSampleRead_sz (l : List MicroOp) (s : State) : (loadSampleRead l s).sz = s.sz := rfl
@[simp] theorem loadSampleRead_sst (l : List MicroOp) (s : State) : (loadSampleRead l s).sst = s.sst := rfl
@[simp] theorem loadSampleRead_sum (l : List MicroOp) (s : State) : (loadSampleRead l s).sum = s.sum := rfl
@[simp] theorem loadSampleRead_scnt (l : List MicroOp) (s : State) : (loadSampleRead l s).scnt = s.scnt := rfl
@[simp] theorem loadSampleRead_phase (l : List MicroOp) (s : State) : (loadSampleRead l s).phase = s.phase := rfl
@[simp] theorem loadSampleRead_run (l : List MicroOp) (s : State) : (loadSampleRead l s).run = s.run := rfl
@[simp] theorem loadSampleRead_ramp (l : List MicroOp) (s : State) : (loadSampleRead l s).ramp = s.ramp := rfl
@[simp] theorem loadSampleRead_dwell (l : List MicroOp) (s : State) : (loadSampleRead l s).dwell = s.dwell := rfl
@[simp] theorem loadSampleRead_txb (l : List MicroOp) (s : State) : (loadSampleRead l s).txb = s.txb := rfl
@[simp] theorem loadSampleRead_rxb (l : List MicroOp) (s : State) : (loadSampleRead l s).rxb = s.rxb := rfl
@[simp] theorem loadSampleRead_ulist (l : List MicroOp) (s : State) : (loadSampleRead l s).ulist = l := rfl
@[simp] theorem loadSampleRead_btcStep (l : List MicroOp) (s : State) : (loadSampleRead l s).btcStep = 1 := rfl
@[simp] theorem loadSampleRead_btcXyz (l : List MicroOp) (s : State) : (loadSampleRead l s).btcXyz = true := rfl
@[simp] theorem loadSampleRead_tpc (l : List MicroOp) (s : State) : (loadSampleRead l s).tpc = s.tpc := rfl
@[simp] theorem loadSampleRead_srep (l : List MicroOp) (s : State) : (loadSampleRead l s).srep = s.srep := rfl
@[simp] theorem loadSampleRead_emitq (l : List MicroOp) (s : State) : (loadSampleRead l s).emitq = s.emitq := rfl
@[simp] theorem loadSampleRead_eng (l : List MicroOp) (s : State) : (loadSampleRead l s).eng = s.eng := rfl
@[simp] theorem loadSampleRead_mode (l : List MicroOp) (s : State) : (loadSampleRead l s).mode = s.mode := rfl
@[simp] theorem loadSampleRead_slv (l : List MicroOp) (s : State) : (loadSampleRead l s).slv = s.slv := rfl
@[simp] theorem loadSampleRead_otx (l : List MicroOp) (s : State) : (loadSampleRead l s).otx = s.otx := rfl
@[simp] theorem loadSampleRead_act (l : List MicroOp) (s : State) : (loadSampleRead l s).act = s.act := rfl
@[simp] theorem loadSampleRead_wire (l : List MicroOp) (s : State) : (loadSampleRead l s).wire = s.wire := rfl
@[simp] theorem loadSampleRead_out (l : List MicroOp) (s : State) : (loadSampleRead l s).out = s.out := rfl
@[simp] theorem loadSampleRead_hrdata (l : List MicroOp) (s : State) : (loadSampleRead l s).hrdata = s.hrdata := rfl
@[simp] theorem loadSampleRead_hostq (l : List MicroOp) (s : State) : (loadSampleRead l s).hostq = s.hostq := rfl
@[simp] theorem loadSampleRead_sched (l : List MicroOp) (s : State) : (loadSampleRead l s).sched = s.sched := rfl
@[simp] theorem loadSampleRead_draws (l : List MicroOp) (s : State) : (loadSampleRead l s).draws = s.draws := rfl

/-! ### `completeList` (R158) -/

@[simp] theorem completeList_cfg (s : State) : (completeList s).cfg = s.cfg := rfl
@[simp] theorem completeList_tickPend (s : State) : (completeList s).tickPend = s.tickPend := rfl
@[simp] theorem completeList_tickOvr (s : State) : (completeList s).tickOvr = s.tickOvr := rfl
@[simp] theorem completeList_fault (s : State) : (completeList s).fault = s.fault := rfl
@[simp] theorem completeList_finfo (s : State) : (completeList s).finfo = s.finfo := rfl
@[simp] theorem completeList_res (s : State) : (completeList s).res = s.res := rfl
@[simp] theorem completeList_sa (s : State) : (completeList s).sa = s.sa := rfl
@[simp] theorem completeList_saValid (s : State) : (completeList s).saValid = s.saValid := rfl
@[simp] theorem completeList_initDone (s : State) : (completeList s).initDone = s.initDone := rfl
@[simp] theorem completeList_acc (s : State) : (completeList s).acc = s.acc := rfl
@[simp] theorem completeList_vel (s : State) : (completeList s).vel = s.vel := rfl
@[simp] theorem completeList_dist (s : State) : (completeList s).dist = s.dist := rfl
@[simp] theorem completeList_sx (s : State) : (completeList s).sx = s.sx := rfl
@[simp] theorem completeList_sy (s : State) : (completeList s).sy = s.sy := rfl
@[simp] theorem completeList_sz (s : State) : (completeList s).sz = s.sz := rfl
@[simp] theorem completeList_sst (s : State) : (completeList s).sst = s.sst := rfl
@[simp] theorem completeList_sum (s : State) : (completeList s).sum = s.sum := rfl
@[simp] theorem completeList_scnt (s : State) : (completeList s).scnt = s.scnt := rfl
@[simp] theorem completeList_phase (s : State) : (completeList s).phase = s.phase := rfl
@[simp] theorem completeList_run (s : State) : (completeList s).run = s.run := rfl
@[simp] theorem completeList_ramp (s : State) : (completeList s).ramp = s.ramp := rfl
@[simp] theorem completeList_dwell (s : State) : (completeList s).dwell = s.dwell := rfl
@[simp] theorem completeList_txb (s : State) : (completeList s).txb = s.txb := rfl
@[simp] theorem completeList_rxb (s : State) : (completeList s).rxb = s.rxb := rfl
@[simp] theorem completeList_ulist (s : State) : (completeList s).ulist = [] := rfl
@[simp] theorem completeList_btcStep (s : State) : (completeList s).btcStep = 0 := rfl
@[simp] theorem completeList_btcXyz (s : State) : (completeList s).btcXyz = false := rfl
@[simp] theorem completeList_tpc (s : State) : (completeList s).tpc = s.tpc := rfl
@[simp] theorem completeList_srep (s : State) : (completeList s).srep = s.srep := rfl
@[simp] theorem completeList_emitq (s : State) : (completeList s).emitq = s.emitq := rfl
@[simp] theorem completeList_eng (s : State) : (completeList s).eng = s.eng := rfl
@[simp] theorem completeList_mode (s : State) : (completeList s).mode = s.mode := rfl
@[simp] theorem completeList_slv (s : State) : (completeList s).slv = s.slv := rfl
@[simp] theorem completeList_otx (s : State) : (completeList s).otx = s.otx := rfl
@[simp] theorem completeList_act (s : State) : (completeList s).act = s.act := rfl
@[simp] theorem completeList_wire (s : State) : (completeList s).wire = s.wire := rfl
@[simp] theorem completeList_out (s : State) : (completeList s).out = s.out := rfl
@[simp] theorem completeList_hrdata (s : State) : (completeList s).hrdata = s.hrdata := rfl
@[simp] theorem completeList_hostq (s : State) : (completeList s).hostq = s.hostq := rfl
@[simp] theorem completeList_sched (s : State) : (completeList s).sched = s.sched := rfl
@[simp] theorem completeList_draws (s : State) : (completeList s).draws = s.draws := rfl

/-! ### `latchSample` (R191) -/

@[simp] theorem latchSample_cfg (s : State) : (latchSample s).cfg = s.cfg := rfl
@[simp] theorem latchSample_tickPend (s : State) : (latchSample s).tickPend = s.tickPend := rfl
@[simp] theorem latchSample_tickOvr (s : State) : (latchSample s).tickOvr = s.tickOvr := rfl
@[simp] theorem latchSample_fault (s : State) : (latchSample s).fault = s.fault := rfl
@[simp] theorem latchSample_finfo (s : State) : (latchSample s).finfo = s.finfo := rfl
@[simp] theorem latchSample_res (s : State) : (latchSample s).res = zext32 s.rxb[6] := rfl
@[simp] theorem latchSample_sa (s : State) : (latchSample s).sa = s.sa := rfl
@[simp] theorem latchSample_saValid (s : State) : (latchSample s).saValid = s.saValid := rfl
@[simp] theorem latchSample_initDone (s : State) : (latchSample s).initDone = s.initDone := rfl
@[simp] theorem latchSample_acc (s : State) : (latchSample s).acc = s.acc := rfl
@[simp] theorem latchSample_vel (s : State) : (latchSample s).vel = s.vel := rfl
@[simp] theorem latchSample_dist (s : State) : (latchSample s).dist = s.dist := rfl
@[simp] theorem latchSample_sx (s : State) : (latchSample s).sx = decodeSample s.rxb[0] s.rxb[1] := rfl
@[simp] theorem latchSample_sy (s : State) : (latchSample s).sy = decodeSample s.rxb[2] s.rxb[3] := rfl
@[simp] theorem latchSample_sz (s : State) : (latchSample s).sz = decodeSample s.rxb[4] s.rxb[5] := rfl
@[simp] theorem latchSample_sst (s : State) : (latchSample s).sst = s.rxb[6] := rfl
@[simp] theorem latchSample_sum (s : State) : (latchSample s).sum = s.sum := rfl
@[simp] theorem latchSample_scnt (s : State) : (latchSample s).scnt = s.scnt := rfl
@[simp] theorem latchSample_phase (s : State) : (latchSample s).phase = s.phase := rfl
@[simp] theorem latchSample_run (s : State) : (latchSample s).run = s.run := rfl
@[simp] theorem latchSample_ramp (s : State) : (latchSample s).ramp = s.ramp := rfl
@[simp] theorem latchSample_dwell (s : State) : (latchSample s).dwell = s.dwell := rfl
@[simp] theorem latchSample_txb (s : State) : (latchSample s).txb = s.txb := rfl
@[simp] theorem latchSample_rxb (s : State) : (latchSample s).rxb = s.rxb := rfl
@[simp] theorem latchSample_ulist (s : State) : (latchSample s).ulist = s.ulist := rfl
@[simp] theorem latchSample_btcStep (s : State) : (latchSample s).btcStep = s.btcStep := rfl
@[simp] theorem latchSample_btcXyz (s : State) : (latchSample s).btcXyz = s.btcXyz := rfl
@[simp] theorem latchSample_tpc (s : State) : (latchSample s).tpc = s.tpc := rfl
@[simp] theorem latchSample_srep (s : State) : (latchSample s).srep = s.srep := rfl
@[simp] theorem latchSample_emitq (s : State) : (latchSample s).emitq = s.emitq := rfl
@[simp] theorem latchSample_eng (s : State) : (latchSample s).eng = s.eng := rfl
@[simp] theorem latchSample_mode (s : State) : (latchSample s).mode = s.mode := rfl
@[simp] theorem latchSample_slv (s : State) : (latchSample s).slv = s.slv := rfl
@[simp] theorem latchSample_otx (s : State) : (latchSample s).otx = s.otx := rfl
@[simp] theorem latchSample_act (s : State) : (latchSample s).act = s.act := rfl
@[simp] theorem latchSample_wire (s : State) : (latchSample s).wire = s.wire := rfl
@[simp] theorem latchSample_out (s : State) : (latchSample s).out = s.out := rfl
@[simp] theorem latchSample_hrdata (s : State) : (latchSample s).hrdata = s.hrdata := rfl
@[simp] theorem latchSample_hostq (s : State) : (latchSample s).hostq = s.hostq := rfl
@[simp] theorem latchSample_sched (s : State) : (latchSample s).sched = s.sched := rfl
@[simp] theorem latchSample_draws (s : State) : (latchSample s).draws = s.draws := rfl

/-! ### `emitAct` (R141) -/

@[simp] theorem emitAct_cfg (a : Action) (s : State) : (emitAct a s).cfg = s.cfg := rfl
@[simp] theorem emitAct_tickPend (a : Action) (s : State) : (emitAct a s).tickPend = s.tickPend := rfl
@[simp] theorem emitAct_tickOvr (a : Action) (s : State) : (emitAct a s).tickOvr = s.tickOvr := rfl
@[simp] theorem emitAct_fault (a : Action) (s : State) : (emitAct a s).fault = s.fault := rfl
@[simp] theorem emitAct_finfo (a : Action) (s : State) : (emitAct a s).finfo = s.finfo := rfl
@[simp] theorem emitAct_res (a : Action) (s : State) : (emitAct a s).res = s.res := rfl
@[simp] theorem emitAct_sa (a : Action) (s : State) : (emitAct a s).sa = s.sa := rfl
@[simp] theorem emitAct_saValid (a : Action) (s : State) : (emitAct a s).saValid = s.saValid := rfl
@[simp] theorem emitAct_initDone (a : Action) (s : State) : (emitAct a s).initDone = s.initDone := rfl
@[simp] theorem emitAct_acc (a : Action) (s : State) : (emitAct a s).acc = s.acc := rfl
@[simp] theorem emitAct_vel (a : Action) (s : State) : (emitAct a s).vel = s.vel := rfl
@[simp] theorem emitAct_dist (a : Action) (s : State) : (emitAct a s).dist = s.dist := rfl
@[simp] theorem emitAct_sx (a : Action) (s : State) : (emitAct a s).sx = s.sx := rfl
@[simp] theorem emitAct_sy (a : Action) (s : State) : (emitAct a s).sy = s.sy := rfl
@[simp] theorem emitAct_sz (a : Action) (s : State) : (emitAct a s).sz = s.sz := rfl
@[simp] theorem emitAct_sst (a : Action) (s : State) : (emitAct a s).sst = s.sst := rfl
@[simp] theorem emitAct_sum (a : Action) (s : State) : (emitAct a s).sum = s.sum := rfl
@[simp] theorem emitAct_scnt (a : Action) (s : State) : (emitAct a s).scnt = s.scnt := rfl
@[simp] theorem emitAct_phase (a : Action) (s : State) : (emitAct a s).phase = s.phase := rfl
@[simp] theorem emitAct_run (a : Action) (s : State) : (emitAct a s).run = s.run := rfl
@[simp] theorem emitAct_ramp (a : Action) (s : State) : (emitAct a s).ramp = s.ramp := rfl
@[simp] theorem emitAct_dwell (a : Action) (s : State) : (emitAct a s).dwell = s.dwell := rfl
@[simp] theorem emitAct_txb (a : Action) (s : State) : (emitAct a s).txb = s.txb := rfl
@[simp] theorem emitAct_rxb (a : Action) (s : State) : (emitAct a s).rxb = s.rxb := rfl
@[simp] theorem emitAct_ulist (a : Action) (s : State) : (emitAct a s).ulist = s.ulist := rfl
@[simp] theorem emitAct_btcStep (a : Action) (s : State) : (emitAct a s).btcStep = s.btcStep := rfl
@[simp] theorem emitAct_btcXyz (a : Action) (s : State) : (emitAct a s).btcXyz = s.btcXyz := rfl
@[simp] theorem emitAct_tpc (a : Action) (s : State) : (emitAct a s).tpc = s.tpc := rfl
@[simp] theorem emitAct_srep (a : Action) (s : State) : (emitAct a s).srep = s.srep := rfl
@[simp] theorem emitAct_emitq (a : Action) (s : State) : (emitAct a s).emitq = s.emitq := rfl
@[simp] theorem emitAct_eng (a : Action) (s : State) : (emitAct a s).eng = s.eng := rfl
@[simp] theorem emitAct_mode (a : Action) (s : State) : (emitAct a s).mode = s.mode := rfl
@[simp] theorem emitAct_slv (a : Action) (s : State) : (emitAct a s).slv = s.slv := rfl
@[simp] theorem emitAct_otx (a : Action) (s : State) : (emitAct a s).otx = s.otx := rfl
@[simp] theorem emitAct_act (a : Action) (s : State) : (emitAct a s).act = s.act ++ [a] := rfl
@[simp] theorem emitAct_wire (a : Action) (s : State) : (emitAct a s).wire = s.wire := rfl
@[simp] theorem emitAct_out (a : Action) (s : State) : (emitAct a s).out = s.out := rfl
@[simp] theorem emitAct_hrdata (a : Action) (s : State) : (emitAct a s).hrdata = s.hrdata := rfl
@[simp] theorem emitAct_hostq (a : Action) (s : State) : (emitAct a s).hostq = s.hostq := rfl
@[simp] theorem emitAct_sched (a : Action) (s : State) : (emitAct a s).sched = s.sched := rfl
@[simp] theorem emitAct_draws (a : Action) (s : State) : (emitAct a s).draws = s.draws := rfl

/-! ### `emitWire` (R64) -/

@[simp] theorem emitWire_cfg (w : List WireEvent) (s : State) : (emitWire w s).cfg = s.cfg := rfl
@[simp] theorem emitWire_tickPend (w : List WireEvent) (s : State) : (emitWire w s).tickPend = s.tickPend := rfl
@[simp] theorem emitWire_tickOvr (w : List WireEvent) (s : State) : (emitWire w s).tickOvr = s.tickOvr := rfl
@[simp] theorem emitWire_fault (w : List WireEvent) (s : State) : (emitWire w s).fault = s.fault := rfl
@[simp] theorem emitWire_finfo (w : List WireEvent) (s : State) : (emitWire w s).finfo = s.finfo := rfl
@[simp] theorem emitWire_res (w : List WireEvent) (s : State) : (emitWire w s).res = s.res := rfl
@[simp] theorem emitWire_sa (w : List WireEvent) (s : State) : (emitWire w s).sa = s.sa := rfl
@[simp] theorem emitWire_saValid (w : List WireEvent) (s : State) : (emitWire w s).saValid = s.saValid := rfl
@[simp] theorem emitWire_initDone (w : List WireEvent) (s : State) : (emitWire w s).initDone = s.initDone := rfl
@[simp] theorem emitWire_acc (w : List WireEvent) (s : State) : (emitWire w s).acc = s.acc := rfl
@[simp] theorem emitWire_vel (w : List WireEvent) (s : State) : (emitWire w s).vel = s.vel := rfl
@[simp] theorem emitWire_dist (w : List WireEvent) (s : State) : (emitWire w s).dist = s.dist := rfl
@[simp] theorem emitWire_sx (w : List WireEvent) (s : State) : (emitWire w s).sx = s.sx := rfl
@[simp] theorem emitWire_sy (w : List WireEvent) (s : State) : (emitWire w s).sy = s.sy := rfl
@[simp] theorem emitWire_sz (w : List WireEvent) (s : State) : (emitWire w s).sz = s.sz := rfl
@[simp] theorem emitWire_sst (w : List WireEvent) (s : State) : (emitWire w s).sst = s.sst := rfl
@[simp] theorem emitWire_sum (w : List WireEvent) (s : State) : (emitWire w s).sum = s.sum := rfl
@[simp] theorem emitWire_scnt (w : List WireEvent) (s : State) : (emitWire w s).scnt = s.scnt := rfl
@[simp] theorem emitWire_phase (w : List WireEvent) (s : State) : (emitWire w s).phase = s.phase := rfl
@[simp] theorem emitWire_run (w : List WireEvent) (s : State) : (emitWire w s).run = s.run := rfl
@[simp] theorem emitWire_ramp (w : List WireEvent) (s : State) : (emitWire w s).ramp = s.ramp := rfl
@[simp] theorem emitWire_dwell (w : List WireEvent) (s : State) : (emitWire w s).dwell = s.dwell := rfl
@[simp] theorem emitWire_txb (w : List WireEvent) (s : State) : (emitWire w s).txb = s.txb := rfl
@[simp] theorem emitWire_rxb (w : List WireEvent) (s : State) : (emitWire w s).rxb = s.rxb := rfl
@[simp] theorem emitWire_ulist (w : List WireEvent) (s : State) : (emitWire w s).ulist = s.ulist := rfl
@[simp] theorem emitWire_btcStep (w : List WireEvent) (s : State) : (emitWire w s).btcStep = s.btcStep := rfl
@[simp] theorem emitWire_btcXyz (w : List WireEvent) (s : State) : (emitWire w s).btcXyz = s.btcXyz := rfl
@[simp] theorem emitWire_tpc (w : List WireEvent) (s : State) : (emitWire w s).tpc = s.tpc := rfl
@[simp] theorem emitWire_srep (w : List WireEvent) (s : State) : (emitWire w s).srep = s.srep := rfl
@[simp] theorem emitWire_emitq (w : List WireEvent) (s : State) : (emitWire w s).emitq = s.emitq := rfl
@[simp] theorem emitWire_eng (w : List WireEvent) (s : State) : (emitWire w s).eng = s.eng := rfl
@[simp] theorem emitWire_mode (w : List WireEvent) (s : State) : (emitWire w s).mode = s.mode := rfl
@[simp] theorem emitWire_slv (w : List WireEvent) (s : State) : (emitWire w s).slv = s.slv := rfl
@[simp] theorem emitWire_otx (w : List WireEvent) (s : State) : (emitWire w s).otx = s.otx := rfl
@[simp] theorem emitWire_act (w : List WireEvent) (s : State) : (emitWire w s).act = s.act := rfl
@[simp] theorem emitWire_wire (w : List WireEvent) (s : State) : (emitWire w s).wire = s.wire ++ w := rfl
@[simp] theorem emitWire_out (w : List WireEvent) (s : State) : (emitWire w s).out = s.out := rfl
@[simp] theorem emitWire_hrdata (w : List WireEvent) (s : State) : (emitWire w s).hrdata = s.hrdata := rfl
@[simp] theorem emitWire_hostq (w : List WireEvent) (s : State) : (emitWire w s).hostq = s.hostq := rfl
@[simp] theorem emitWire_sched (w : List WireEvent) (s : State) : (emitWire w s).sched = s.sched := rfl
@[simp] theorem emitWire_draws (w : List WireEvent) (s : State) : (emitWire w s).draws = s.draws := rfl

/-! ### `dwellEnd` (R251) -/

@[simp] theorem dwellEnd_cfg (s : State) : (dwellEnd s).cfg = s.cfg := rfl
@[simp] theorem dwellEnd_tickPend (s : State) : (dwellEnd s).tickPend = s.tickPend := rfl
@[simp] theorem dwellEnd_tickOvr (s : State) : (dwellEnd s).tickOvr = s.tickOvr := rfl
@[simp] theorem dwellEnd_fault (s : State) : (dwellEnd s).fault = s.fault := rfl
@[simp] theorem dwellEnd_finfo (s : State) : (dwellEnd s).finfo = s.finfo := rfl
@[simp] theorem dwellEnd_res (s : State) : (dwellEnd s).res = s.res := rfl
@[simp] theorem dwellEnd_sa (s : State) : (dwellEnd s).sa = s.sa := rfl
@[simp] theorem dwellEnd_saValid (s : State) : (dwellEnd s).saValid = s.saValid := rfl
@[simp] theorem dwellEnd_initDone (s : State) : (dwellEnd s).initDone = s.initDone := rfl
@[simp] theorem dwellEnd_acc (s : State) : (dwellEnd s).acc = s.acc := rfl
@[simp] theorem dwellEnd_vel (s : State) : (dwellEnd s).vel = 0 := rfl
@[simp] theorem dwellEnd_dist (s : State) : (dwellEnd s).dist = s.dist := rfl
@[simp] theorem dwellEnd_sx (s : State) : (dwellEnd s).sx = s.sx := rfl
@[simp] theorem dwellEnd_sy (s : State) : (dwellEnd s).sy = s.sy := rfl
@[simp] theorem dwellEnd_sz (s : State) : (dwellEnd s).sz = s.sz := rfl
@[simp] theorem dwellEnd_sst (s : State) : (dwellEnd s).sst = s.sst := rfl
@[simp] theorem dwellEnd_sum (s : State) : (dwellEnd s).sum = s.sum := rfl
@[simp] theorem dwellEnd_scnt (s : State) : (dwellEnd s).scnt = s.scnt := rfl
@[simp] theorem dwellEnd_phase (s : State) : (dwellEnd s).phase = .reversing := rfl
@[simp] theorem dwellEnd_run (s : State) : (dwellEnd s).run = s.run := rfl
@[simp] theorem dwellEnd_ramp (s : State) : (dwellEnd s).ramp = s.ramp := rfl
@[simp] theorem dwellEnd_dwell (s : State) : (dwellEnd s).dwell = s.dwell := rfl
@[simp] theorem dwellEnd_txb (s : State) : (dwellEnd s).txb = s.txb := rfl
@[simp] theorem dwellEnd_rxb (s : State) : (dwellEnd s).rxb = s.rxb := rfl
@[simp] theorem dwellEnd_ulist (s : State) : (dwellEnd s).ulist = s.ulist := rfl
@[simp] theorem dwellEnd_btcStep (s : State) : (dwellEnd s).btcStep = s.btcStep := rfl
@[simp] theorem dwellEnd_btcXyz (s : State) : (dwellEnd s).btcXyz = s.btcXyz := rfl
@[simp] theorem dwellEnd_tpc (s : State) : (dwellEnd s).tpc = s.tpc := rfl
@[simp] theorem dwellEnd_srep (s : State) : (dwellEnd s).srep = s.srep := rfl
@[simp] theorem dwellEnd_emitq (s : State) : (dwellEnd s).emitq = s.emitq ++ [s.cfg.params.cmdReverse] := rfl
@[simp] theorem dwellEnd_eng (s : State) : (dwellEnd s).eng = s.eng := rfl
@[simp] theorem dwellEnd_mode (s : State) : (dwellEnd s).mode = s.mode := rfl
@[simp] theorem dwellEnd_slv (s : State) : (dwellEnd s).slv = s.slv := rfl
@[simp] theorem dwellEnd_otx (s : State) : (dwellEnd s).otx = s.otx := rfl
@[simp] theorem dwellEnd_act (s : State) : (dwellEnd s).act = s.act := rfl
@[simp] theorem dwellEnd_wire (s : State) : (dwellEnd s).wire = s.wire := rfl
@[simp] theorem dwellEnd_out (s : State) : (dwellEnd s).out = s.out := rfl
@[simp] theorem dwellEnd_hrdata (s : State) : (dwellEnd s).hrdata = s.hrdata := rfl
@[simp] theorem dwellEnd_hostq (s : State) : (dwellEnd s).hostq = s.hostq := rfl
@[simp] theorem dwellEnd_sched (s : State) : (dwellEnd s).sched = s.sched := rfl
@[simp] theorem dwellEnd_draws (s : State) : (dwellEnd s).draws = s.draws := rfl

/-! ### `startCourse` (R241) -/

@[simp] theorem startCourse_cfg (s : State) : (startCourse s).cfg = s.cfg := rfl
@[simp] theorem startCourse_tickPend (s : State) : (startCourse s).tickPend = false := rfl
@[simp] theorem startCourse_tickOvr (s : State) : (startCourse s).tickOvr = s.tickOvr := rfl
@[simp] theorem startCourse_fault (s : State) : (startCourse s).fault = s.fault := rfl
@[simp] theorem startCourse_finfo (s : State) : (startCourse s).finfo = s.finfo := rfl
@[simp] theorem startCourse_res (s : State) : (startCourse s).res = s.res := rfl
@[simp] theorem startCourse_sa (s : State) : (startCourse s).sa = s.sa := rfl
@[simp] theorem startCourse_saValid (s : State) : (startCourse s).saValid = s.saValid := rfl
@[simp] theorem startCourse_initDone (s : State) : (startCourse s).initDone = s.initDone := rfl
@[simp] theorem startCourse_acc (s : State) : (startCourse s).acc = s.acc := rfl
@[simp] theorem startCourse_vel (s : State) : (startCourse s).vel = 0 := rfl
@[simp] theorem startCourse_dist (s : State) : (startCourse s).dist = 0 := rfl
@[simp] theorem startCourse_sx (s : State) : (startCourse s).sx = s.sx := rfl
@[simp] theorem startCourse_sy (s : State) : (startCourse s).sy = s.sy := rfl
@[simp] theorem startCourse_sz (s : State) : (startCourse s).sz = s.sz := rfl
@[simp] theorem startCourse_sst (s : State) : (startCourse s).sst = s.sst := rfl
@[simp] theorem startCourse_sum (s : State) : (startCourse s).sum = s.sum := rfl
@[simp] theorem startCourse_scnt (s : State) : (startCourse s).scnt = s.scnt := rfl
@[simp] theorem startCourse_phase (s : State) : (startCourse s).phase = .accelerating := rfl
@[simp] theorem startCourse_run (s : State) : (startCourse s).run = true := rfl
@[simp] theorem startCourse_ramp (s : State) : (startCourse s).ramp = 0 := rfl
@[simp] theorem startCourse_dwell (s : State) : (startCourse s).dwell = 0 := rfl
@[simp] theorem startCourse_txb (s : State) : (startCourse s).txb = s.txb := rfl
@[simp] theorem startCourse_rxb (s : State) : (startCourse s).rxb = s.rxb := rfl
@[simp] theorem startCourse_ulist (s : State) : (startCourse s).ulist = s.ulist := rfl
@[simp] theorem startCourse_btcStep (s : State) : (startCourse s).btcStep = s.btcStep := rfl
@[simp] theorem startCourse_btcXyz (s : State) : (startCourse s).btcXyz = s.btcXyz := rfl
@[simp] theorem startCourse_tpc (s : State) : (startCourse s).tpc = s.tpc := rfl
@[simp] theorem startCourse_srep (s : State) : (startCourse s).srep = s.srep := rfl
@[simp] theorem startCourse_emitq (s : State) : (startCourse s).emitq = s.emitq := rfl
@[simp] theorem startCourse_eng (s : State) : (startCourse s).eng = s.eng := rfl
@[simp] theorem startCourse_mode (s : State) : (startCourse s).mode = s.mode := rfl
@[simp] theorem startCourse_slv (s : State) : (startCourse s).slv = s.slv := rfl
@[simp] theorem startCourse_otx (s : State) : (startCourse s).otx = s.otx := rfl
@[simp] theorem startCourse_act (s : State) : (startCourse s).act = s.act := rfl
@[simp] theorem startCourse_wire (s : State) : (startCourse s).wire = s.wire := rfl
@[simp] theorem startCourse_out (s : State) : (startCourse s).out = s.out := rfl
@[simp] theorem startCourse_hrdata (s : State) : (startCourse s).hrdata = s.hrdata := rfl
@[simp] theorem startCourse_hostq (s : State) : (startCourse s).hostq = s.hostq := rfl
@[simp] theorem startCourse_sched (s : State) : (startCourse s).sched = s.sched := rfl
@[simp] theorem startCourse_draws (s : State) : (startCourse s).draws = s.draws := rfl

/-! ### `otxDone` (R260) -/

@[simp] theorem otxDone_cfg (s : State) : (otxDone s).cfg = s.cfg := rfl
@[simp] theorem otxDone_tickPend (s : State) : (otxDone s).tickPend = s.tickPend := rfl
@[simp] theorem otxDone_tickOvr (s : State) : (otxDone s).tickOvr = s.tickOvr := rfl
@[simp] theorem otxDone_fault (s : State) : (otxDone s).fault = s.fault := rfl
@[simp] theorem otxDone_finfo (s : State) : (otxDone s).finfo = s.finfo := rfl
@[simp] theorem otxDone_res (s : State) : (otxDone s).res = s.res := rfl
@[simp] theorem otxDone_sa (s : State) : (otxDone s).sa = s.sa := rfl
@[simp] theorem otxDone_saValid (s : State) : (otxDone s).saValid = s.saValid := rfl
@[simp] theorem otxDone_initDone (s : State) : (otxDone s).initDone = s.initDone := rfl
@[simp] theorem otxDone_acc (s : State) : (otxDone s).acc = s.acc := rfl
@[simp] theorem otxDone_vel (s : State) : (otxDone s).vel = s.vel := rfl
@[simp] theorem otxDone_dist (s : State) : (otxDone s).dist = s.dist := rfl
@[simp] theorem otxDone_sx (s : State) : (otxDone s).sx = s.sx := rfl
@[simp] theorem otxDone_sy (s : State) : (otxDone s).sy = s.sy := rfl
@[simp] theorem otxDone_sz (s : State) : (otxDone s).sz = s.sz := rfl
@[simp] theorem otxDone_sst (s : State) : (otxDone s).sst = s.sst := rfl
@[simp] theorem otxDone_sum (s : State) : (otxDone s).sum = s.sum := rfl
@[simp] theorem otxDone_scnt (s : State) : (otxDone s).scnt = s.scnt := rfl
@[simp] theorem otxDone_phase (s : State) : (otxDone s).phase = s.phase := rfl
@[simp] theorem otxDone_run (s : State) : (otxDone s).run = s.run := rfl
@[simp] theorem otxDone_ramp (s : State) : (otxDone s).ramp = s.ramp := rfl
@[simp] theorem otxDone_dwell (s : State) : (otxDone s).dwell = s.dwell := rfl
@[simp] theorem otxDone_txb (s : State) : (otxDone s).txb = s.txb := rfl
@[simp] theorem otxDone_rxb (s : State) : (otxDone s).rxb = s.rxb := rfl
@[simp] theorem otxDone_ulist (s : State) : (otxDone s).ulist = s.ulist := rfl
@[simp] theorem otxDone_btcStep (s : State) : (otxDone s).btcStep = s.btcStep := rfl
@[simp] theorem otxDone_btcXyz (s : State) : (otxDone s).btcXyz = s.btcXyz := rfl
@[simp] theorem otxDone_tpc (s : State) : (otxDone s).tpc = s.tpc := rfl
@[simp] theorem otxDone_srep (s : State) : (otxDone s).srep = s.srep := rfl
@[simp] theorem otxDone_emitq (s : State) : (otxDone s).emitq = s.emitq := rfl
@[simp] theorem otxDone_eng (s : State) : (otxDone s).eng = s.eng := rfl
@[simp] theorem otxDone_mode (s : State) : (otxDone s).mode = s.mode := rfl
@[simp] theorem otxDone_slv (s : State) : (otxDone s).slv = s.slv := rfl
@[simp] theorem otxDone_otx (s : State) : (otxDone s).otx = { s.otx with busy := false } := rfl
@[simp] theorem otxDone_act (s : State) : (otxDone s).act = s.act := rfl
@[simp] theorem otxDone_wire (s : State) : (otxDone s).wire = s.wire := rfl
@[simp] theorem otxDone_out (s : State) : (otxDone s).out = s.out := rfl
@[simp] theorem otxDone_hrdata (s : State) : (otxDone s).hrdata = s.hrdata := rfl
@[simp] theorem otxDone_hostq (s : State) : (otxDone s).hostq = s.hostq := rfl
@[simp] theorem otxDone_sched (s : State) : (otxDone s).sched = s.sched := rfl
@[simp] theorem otxDone_draws (s : State) : (otxDone s).draws = s.draws := rfl

/-! ### `slaveSets` (R93) -/

@[simp] theorem slaveSets_cfg (a v : Byte) (s : State) : (slaveSets a v s).cfg = s.cfg := rfl
@[simp] theorem slaveSets_tickPend (a v : Byte) (s : State) : (slaveSets a v s).tickPend = s.tickPend := rfl
@[simp] theorem slaveSets_tickOvr (a v : Byte) (s : State) : (slaveSets a v s).tickOvr = s.tickOvr := rfl
@[simp] theorem slaveSets_fault (a v : Byte) (s : State) : (slaveSets a v s).fault = s.fault := rfl
@[simp] theorem slaveSets_finfo (a v : Byte) (s : State) : (slaveSets a v s).finfo = s.finfo := rfl
@[simp] theorem slaveSets_res (a v : Byte) (s : State) : (slaveSets a v s).res = s.res := rfl
@[simp] theorem slaveSets_sa (a v : Byte) (s : State) : (slaveSets a v s).sa = s.sa := rfl
@[simp] theorem slaveSets_saValid (a v : Byte) (s : State) : (slaveSets a v s).saValid = s.saValid := rfl
@[simp] theorem slaveSets_initDone (a v : Byte) (s : State) : (slaveSets a v s).initDone = s.initDone := rfl
@[simp] theorem slaveSets_acc (a v : Byte) (s : State) : (slaveSets a v s).acc = s.acc := rfl
@[simp] theorem slaveSets_vel (a v : Byte) (s : State) : (slaveSets a v s).vel = s.vel := rfl
@[simp] theorem slaveSets_dist (a v : Byte) (s : State) : (slaveSets a v s).dist = s.dist := rfl
@[simp] theorem slaveSets_sx (a v : Byte) (s : State) : (slaveSets a v s).sx = s.sx := rfl
@[simp] theorem slaveSets_sy (a v : Byte) (s : State) : (slaveSets a v s).sy = s.sy := rfl
@[simp] theorem slaveSets_sz (a v : Byte) (s : State) : (slaveSets a v s).sz = s.sz := rfl
@[simp] theorem slaveSets_sst (a v : Byte) (s : State) : (slaveSets a v s).sst = s.sst := rfl
@[simp] theorem slaveSets_sum (a v : Byte) (s : State) : (slaveSets a v s).sum = s.sum := rfl
@[simp] theorem slaveSets_scnt (a v : Byte) (s : State) : (slaveSets a v s).scnt = s.scnt := rfl
@[simp] theorem slaveSets_phase (a v : Byte) (s : State) : (slaveSets a v s).phase = s.phase := rfl
@[simp] theorem slaveSets_run (a v : Byte) (s : State) : (slaveSets a v s).run = s.run := rfl
@[simp] theorem slaveSets_ramp (a v : Byte) (s : State) : (slaveSets a v s).ramp = s.ramp := rfl
@[simp] theorem slaveSets_dwell (a v : Byte) (s : State) : (slaveSets a v s).dwell = s.dwell := rfl
@[simp] theorem slaveSets_txb (a v : Byte) (s : State) : (slaveSets a v s).txb = s.txb := rfl
@[simp] theorem slaveSets_rxb (a v : Byte) (s : State) : (slaveSets a v s).rxb = s.rxb := rfl
@[simp] theorem slaveSets_ulist (a v : Byte) (s : State) : (slaveSets a v s).ulist = s.ulist := rfl
@[simp] theorem slaveSets_btcStep (a v : Byte) (s : State) : (slaveSets a v s).btcStep = s.btcStep := rfl
@[simp] theorem slaveSets_btcXyz (a v : Byte) (s : State) : (slaveSets a v s).btcXyz = s.btcXyz := rfl
@[simp] theorem slaveSets_tpc (a v : Byte) (s : State) : (slaveSets a v s).tpc = s.tpc := rfl
@[simp] theorem slaveSets_srep (a v : Byte) (s : State) : (slaveSets a v s).srep = s.srep := rfl
@[simp] theorem slaveSets_emitq (a v : Byte) (s : State) : (slaveSets a v s).emitq = s.emitq := rfl
@[simp] theorem slaveSets_eng (a v : Byte) (s : State) : (slaveSets a v s).eng = s.eng := rfl
@[simp] theorem slaveSets_mode (a v : Byte) (s : State) : (slaveSets a v s).mode = s.mode := rfl
@[simp] theorem slaveSets_slv (a v : Byte) (s : State) : (slaveSets a v s).slv = { s.slv with sreg := s.slv.sreg.write a.toNat v } := rfl
@[simp] theorem slaveSets_otx (a v : Byte) (s : State) : (slaveSets a v s).otx = s.otx := rfl
@[simp] theorem slaveSets_act (a v : Byte) (s : State) : (slaveSets a v s).act = s.act := rfl
@[simp] theorem slaveSets_wire (a v : Byte) (s : State) : (slaveSets a v s).wire = s.wire := rfl
@[simp] theorem slaveSets_out (a v : Byte) (s : State) : (slaveSets a v s).out = s.out := rfl
@[simp] theorem slaveSets_hrdata (a v : Byte) (s : State) : (slaveSets a v s).hrdata = s.hrdata := rfl
@[simp] theorem slaveSets_hostq (a v : Byte) (s : State) : (slaveSets a v s).hostq = s.hostq := rfl
@[simp] theorem slaveSets_sched (a v : Byte) (s : State) : (slaveSets a v s).sched = s.sched := rfl
@[simp] theorem slaveSets_draws (a v : Byte) (s : State) : (slaveSets a v s).draws = s.draws := rfl

/-! ### `engineSets` (R84) -/

@[simp] theorem engineSets_cfg (e : Eng) (w : List WireEvent) (s : State) : (engineSets e w s).cfg = s.cfg := rfl
@[simp] theorem engineSets_tickPend (e : Eng) (w : List WireEvent) (s : State) : (engineSets e w s).tickPend = s.tickPend := rfl
@[simp] theorem engineSets_tickOvr (e : Eng) (w : List WireEvent) (s : State) : (engineSets e w s).tickOvr = s.tickOvr := rfl
@[simp] theorem engineSets_fault (e : Eng) (w : List WireEvent) (s : State) : (engineSets e w s).fault = s.fault := rfl
@[simp] theorem engineSets_finfo (e : Eng) (w : List WireEvent) (s : State) : (engineSets e w s).finfo = s.finfo := rfl
@[simp] theorem engineSets_res (e : Eng) (w : List WireEvent) (s : State) : (engineSets e w s).res = s.res := rfl
@[simp] theorem engineSets_sa (e : Eng) (w : List WireEvent) (s : State) : (engineSets e w s).sa = s.sa := rfl
@[simp] theorem engineSets_saValid (e : Eng) (w : List WireEvent) (s : State) : (engineSets e w s).saValid = s.saValid := rfl
@[simp] theorem engineSets_initDone (e : Eng) (w : List WireEvent) (s : State) : (engineSets e w s).initDone = s.initDone := rfl
@[simp] theorem engineSets_acc (e : Eng) (w : List WireEvent) (s : State) : (engineSets e w s).acc = s.acc := rfl
@[simp] theorem engineSets_vel (e : Eng) (w : List WireEvent) (s : State) : (engineSets e w s).vel = s.vel := rfl
@[simp] theorem engineSets_dist (e : Eng) (w : List WireEvent) (s : State) : (engineSets e w s).dist = s.dist := rfl
@[simp] theorem engineSets_sx (e : Eng) (w : List WireEvent) (s : State) : (engineSets e w s).sx = s.sx := rfl
@[simp] theorem engineSets_sy (e : Eng) (w : List WireEvent) (s : State) : (engineSets e w s).sy = s.sy := rfl
@[simp] theorem engineSets_sz (e : Eng) (w : List WireEvent) (s : State) : (engineSets e w s).sz = s.sz := rfl
@[simp] theorem engineSets_sst (e : Eng) (w : List WireEvent) (s : State) : (engineSets e w s).sst = s.sst := rfl
@[simp] theorem engineSets_sum (e : Eng) (w : List WireEvent) (s : State) : (engineSets e w s).sum = s.sum := rfl
@[simp] theorem engineSets_scnt (e : Eng) (w : List WireEvent) (s : State) : (engineSets e w s).scnt = s.scnt := rfl
@[simp] theorem engineSets_phase (e : Eng) (w : List WireEvent) (s : State) : (engineSets e w s).phase = s.phase := rfl
@[simp] theorem engineSets_run (e : Eng) (w : List WireEvent) (s : State) : (engineSets e w s).run = s.run := rfl
@[simp] theorem engineSets_ramp (e : Eng) (w : List WireEvent) (s : State) : (engineSets e w s).ramp = s.ramp := rfl
@[simp] theorem engineSets_dwell (e : Eng) (w : List WireEvent) (s : State) : (engineSets e w s).dwell = s.dwell := rfl
@[simp] theorem engineSets_txb (e : Eng) (w : List WireEvent) (s : State) : (engineSets e w s).txb = s.txb := rfl
@[simp] theorem engineSets_rxb (e : Eng) (w : List WireEvent) (s : State) : (engineSets e w s).rxb = s.rxb := rfl
@[simp] theorem engineSets_ulist (e : Eng) (w : List WireEvent) (s : State) : (engineSets e w s).ulist = s.ulist := rfl
@[simp] theorem engineSets_btcStep (e : Eng) (w : List WireEvent) (s : State) : (engineSets e w s).btcStep = s.btcStep := rfl
@[simp] theorem engineSets_btcXyz (e : Eng) (w : List WireEvent) (s : State) : (engineSets e w s).btcXyz = s.btcXyz := rfl
@[simp] theorem engineSets_tpc (e : Eng) (w : List WireEvent) (s : State) : (engineSets e w s).tpc = s.tpc := rfl
@[simp] theorem engineSets_srep (e : Eng) (w : List WireEvent) (s : State) : (engineSets e w s).srep = s.srep := rfl
@[simp] theorem engineSets_emitq (e : Eng) (w : List WireEvent) (s : State) : (engineSets e w s).emitq = s.emitq := rfl
@[simp] theorem engineSets_eng (e : Eng) (w : List WireEvent) (s : State) : (engineSets e w s).eng = e := rfl
@[simp] theorem engineSets_mode (e : Eng) (w : List WireEvent) (s : State) : (engineSets e w s).mode = s.mode := rfl
@[simp] theorem engineSets_slv (e : Eng) (w : List WireEvent) (s : State) : (engineSets e w s).slv = s.slv := rfl
@[simp] theorem engineSets_otx (e : Eng) (w : List WireEvent) (s : State) : (engineSets e w s).otx = s.otx := rfl
@[simp] theorem engineSets_act (e : Eng) (w : List WireEvent) (s : State) : (engineSets e w s).act = s.act := rfl
@[simp] theorem engineSets_wire (e : Eng) (w : List WireEvent) (s : State) : (engineSets e w s).wire = s.wire ++ w := rfl
@[simp] theorem engineSets_out (e : Eng) (w : List WireEvent) (s : State) : (engineSets e w s).out = s.out := rfl
@[simp] theorem engineSets_hrdata (e : Eng) (w : List WireEvent) (s : State) : (engineSets e w s).hrdata = s.hrdata := rfl
@[simp] theorem engineSets_hostq (e : Eng) (w : List WireEvent) (s : State) : (engineSets e w s).hostq = s.hostq := rfl
@[simp] theorem engineSets_sched (e : Eng) (w : List WireEvent) (s : State) : (engineSets e w s).sched = s.sched := rfl
@[simp] theorem engineSets_draws (e : Eng) (w : List WireEvent) (s : State) : (engineSets e w s).draws = s.draws := rfl

/-! ### `eventTaken` (R11) -/

@[simp] theorem eventTaken_cfg (s : State) : (s.eventTaken).cfg = s.cfg := rfl
@[simp] theorem eventTaken_tickPend (s : State) : (s.eventTaken).tickPend = s.tickPend := rfl
@[simp] theorem eventTaken_tickOvr (s : State) : (s.eventTaken).tickOvr = s.tickOvr := rfl
@[simp] theorem eventTaken_fault (s : State) : (s.eventTaken).fault = s.fault := rfl
@[simp] theorem eventTaken_finfo (s : State) : (s.eventTaken).finfo = s.finfo := rfl
@[simp] theorem eventTaken_res (s : State) : (s.eventTaken).res = s.res := rfl
@[simp] theorem eventTaken_sa (s : State) : (s.eventTaken).sa = s.sa := rfl
@[simp] theorem eventTaken_saValid (s : State) : (s.eventTaken).saValid = s.saValid := rfl
@[simp] theorem eventTaken_initDone (s : State) : (s.eventTaken).initDone = s.initDone := rfl
@[simp] theorem eventTaken_acc (s : State) : (s.eventTaken).acc = s.acc := rfl
@[simp] theorem eventTaken_vel (s : State) : (s.eventTaken).vel = s.vel := rfl
@[simp] theorem eventTaken_dist (s : State) : (s.eventTaken).dist = s.dist := rfl
@[simp] theorem eventTaken_sx (s : State) : (s.eventTaken).sx = s.sx := rfl
@[simp] theorem eventTaken_sy (s : State) : (s.eventTaken).sy = s.sy := rfl
@[simp] theorem eventTaken_sz (s : State) : (s.eventTaken).sz = s.sz := rfl
@[simp] theorem eventTaken_sst (s : State) : (s.eventTaken).sst = s.sst := rfl
@[simp] theorem eventTaken_sum (s : State) : (s.eventTaken).sum = s.sum := rfl
@[simp] theorem eventTaken_scnt (s : State) : (s.eventTaken).scnt = s.scnt := rfl
@[simp] theorem eventTaken_phase (s : State) : (s.eventTaken).phase = s.phase := rfl
@[simp] theorem eventTaken_run (s : State) : (s.eventTaken).run = s.run := rfl
@[simp] theorem eventTaken_ramp (s : State) : (s.eventTaken).ramp = s.ramp := rfl
@[simp] theorem eventTaken_dwell (s : State) : (s.eventTaken).dwell = s.dwell := rfl
@[simp] theorem eventTaken_txb (s : State) : (s.eventTaken).txb = s.txb := rfl
@[simp] theorem eventTaken_rxb (s : State) : (s.eventTaken).rxb = s.rxb := rfl
@[simp] theorem eventTaken_ulist (s : State) : (s.eventTaken).ulist = s.ulist := rfl
@[simp] theorem eventTaken_btcStep (s : State) : (s.eventTaken).btcStep = s.btcStep := rfl
@[simp] theorem eventTaken_btcXyz (s : State) : (s.eventTaken).btcXyz = s.btcXyz := rfl
@[simp] theorem eventTaken_tpc (s : State) : (s.eventTaken).tpc = s.tpc := rfl
@[simp] theorem eventTaken_srep (s : State) : (s.eventTaken).srep = s.srep := rfl
@[simp] theorem eventTaken_emitq (s : State) : (s.eventTaken).emitq = s.emitq := rfl
@[simp] theorem eventTaken_eng (s : State) : (s.eventTaken).eng = s.eng := rfl
@[simp] theorem eventTaken_mode (s : State) : (s.eventTaken).mode = s.mode := rfl
@[simp] theorem eventTaken_slv (s : State) : (s.eventTaken).slv = s.slv := rfl
@[simp] theorem eventTaken_otx (s : State) : (s.eventTaken).otx = s.otx := rfl
@[simp] theorem eventTaken_act (s : State) : (s.eventTaken).act = s.act := rfl
@[simp] theorem eventTaken_wire (s : State) : (s.eventTaken).wire = s.wire := rfl
@[simp] theorem eventTaken_out (s : State) : (s.eventTaken).out = s.out := rfl
@[simp] theorem eventTaken_hrdata (s : State) : (s.eventTaken).hrdata = s.hrdata := rfl
@[simp] theorem eventTaken_hostq (s : State) : (s.eventTaken).hostq = s.hostq := rfl
@[simp] theorem eventTaken_sched (s : State) : (s.eventTaken).sched = s.sched.tail := rfl
@[simp] theorem eventTaken_draws (s : State) : (s.eventTaken).draws = s.draws := rfl

end Sys2Proof.Machine
end

