-- ==== Sys2Proof/Laws/Ops.lean ====
section
/-! SUPPORT. What each shared operation can do, said once. -/

namespace Sys2Proof.Machine

/-! ### Acceptance -/

theorem accept_accepting {s : State} (h : s.accepting) (cw : Word) (body : State → State) :
    accept cw body s = body s := by
  obtain ⟨h1, h2, h3⟩ := h
  unfold accept State.hostPresents
  rw [if_neg (by simpa using h1), if_neg (by simpa using h2)]
  by_cases ht : s.tpc = .wait
  · simp [ht, h3 ht]
  · simp [ht]

theorem accept_busy {s : State} (h : s.btcStep ≠ 0) (cw : Word) (body : State → State) :
    accept cw body s = s := by
  unfold accept
  rw [if_pos h]

theorem accept_faulted {s : State} (h : s.fault ≠ 0) (cw : Word) (body : State → State) :
    accept cw body s = s := by
  unfold accept
  rw [if_pos h, ite_self]

theorem accept_auto {s : State} (hb : s.btcStep = 0) (hf : s.fault = 0) (ht : s.tpc = .wait) (hr : s.run = true)
    (cw : Word) (body : State → State) : accept cw body s = raise .clfown cw s := by
  unfold accept State.hostPresents
  rw [if_neg (by simpa using hb), if_neg (by simpa using hf), if_pos (by simp [ht, hr])]

/-- All that `accept` can do. -/
theorem accept_cases (cw : Word) (body : State → State) (s : State) :
    ((s.btcStep ≠ 0 ∨ s.fault ≠ 0) ∧ accept cw body s = s) ∨
    (s.btcStep = 0 ∧ s.fault = 0 ∧ s.tpc = .wait ∧ s.run = true ∧ accept cw body s = raise .clfown cw s) ∨
    (s.accepting ∧ accept cw body s = body s) := by
  by_cases hb : s.btcStep = 0
  · by_cases hf : s.fault = 0
    · by_cases hc : s.tpc = .wait ∧ s.run = true
      · exact .inr (.inl ⟨hb, hf, hc.1, hc.2, accept_auto hb hf hc.1 hc.2 cw body⟩)
      · have ha : s.accepting := ⟨hb, hf, fun ht => by simpa [ht] using hc⟩
        exact .inr (.inr ⟨ha, accept_accepting ha cw body⟩)
    · exact .inl ⟨.inr hf, accept_faulted hf cw body⟩
  · exact .inl ⟨.inl hb, accept_busy hb cw body⟩

/-- All that `transaction` can do. -/
theorem transaction_cases (cw : Word) (body : State → State) (s : State) :
    (s.initDone = false ∧ transaction cw body s = raise .noinit cw s) ∨
    (s.initDone = true ∧ s.saValid = false ∧ transaction cw body s = raise .noaddr cw s) ∨
    (s.initDone = true ∧ s.saValid = true ∧ transaction cw body s = body s) := by
  unfold transaction
  cases s.initDone <;> cases s.saValid <;> simp

/-- All that `checkLength` can do. -/
theorem checkLength_cases (n : Byte) (depth : Nat) (cw : Word) (body : State → State) (s : State) :
    ((n.toNat = 0 ∨ depth < n.toNat) ∧ checkLength n depth cw body s = raise .badlen cw s) ∨
    (1 ≤ n.toNat ∧ n.toNat ≤ depth ∧ checkLength n depth cw body s = body s) := by
  unfold checkLength
  split
  · exact .inl ⟨‹_›, rfl⟩
  · exact .inr ⟨by omega, by omega, rfl⟩

/-- All that `accumulate` can do. -/
theorem accumulate_cases (s : State) :
    (s.cfg.nAvg ≤ s.scnt.toNat ∧ accumulate s = raise .badseq (encode .sacc) s) ∨
    (s.scnt.toNat < s.cfg.nAvg ∧
      accumulate s = { s with sum := s.sum + driveSample s, scnt := s.scnt + 1 }) := by
  unfold accumulate
  split
  · exact .inl ⟨‹_›, rfl⟩
  · exact .inr ⟨by omega, rfl⟩

/-- All that `deliverAverage` can do. -/
theorem deliverAverage_cases (s : State) :
    (s.scnt.toNat ≠ s.cfg.nAvg ∧ deliverAverage s = raise .badseq (encode .savg) s) ∨
    (s.scnt.toNat = s.cfg.nAvg ∧ deliverAverage s = { s with acc := average s.cfg s.sum }) := by
  unfold deliverAverage
  split
  · exact .inl ⟨‹_›, rfl⟩
  · exact .inr ⟨by simpa using ‹¬ (s.scnt.toNat ≠ s.cfg.nAvg)›, rfl⟩

/-- All that `updateVelocity` can do. -/
theorem updateVelocity_cases (s : State) :
    (fits32 (integrate s.cfg s.acc s.vel) = true ∧
      updateVelocity s = { s with vel := BitVec.ofInt 32 (integrate s.cfg s.acc s.vel) }) ∨
    (fits32 (integrate s.cfg s.acc s.vel) = false ∧ updateVelocity s = raise .iovf (encode .updv) s) := by
  unfold updateVelocity
  cases fits32 (integrate s.cfg s.acc s.vel) <;> simp

/-- All that `updateDistance` can do. -/
theorem updateDistance_cases (s : State) :
    (fits32 (integrate s.cfg s.vel s.dist) = true ∧
      updateDistance s = { s with dist := BitVec.ofInt 32 (integrate s.cfg s.vel s.dist) }) ∨
    (fits32 (integrate s.cfg s.vel s.dist) = false ∧ updateDistance s = raise .iovf (encode .updd) s) := by
  unfold updateDistance
  cases fits32 (integrate s.cfg s.vel s.dist) <;> simp

/-- Every command answers a next state: no command of this hardware stops the model. -/
theorem exec_next (i : Instr) (s : State) : ∃ t, exec i s = .next t := by
  cases i <;> exact ⟨_, rfl⟩

/-- A presented word answers a next state. -/
theorem acceptWord_next (cw : Word) (s : State) : ∃ t, acceptWord cw s = .next t := by
  unfold acceptWord
  split
  · exact exec_next _ s
  · exact ⟨_, rfl⟩

/-! ### The BTC -/

/-- All that `advance` can do. -/
theorem advance_cases (s : State) :
    (s.btcStep < s.ulist.length ∧ advance s = { s with btcStep := s.btcStep + 1 }) ∨
    (s.ulist.length ≤ s.btcStep ∧ s.btcXyz = true ∧ advance s = completeList (latchSample s)) ∨
    (s.ulist.length ≤ s.btcStep ∧ s.btcXyz = false ∧ advance s = completeList s) := by
  unfold advance
  split
  · exact .inl ⟨‹_›, rfl⟩
  · cases h : s.btcXyz
    · exact .inr (.inr ⟨by omega, rfl, by simp⟩)
    · exact .inr (.inl ⟨by omega, rfl, by simp⟩)

/-- All that a step of the BTC can do. -/
theorem microStep_cases (s : State) :
    (s.currentOp = none ∧ microStep s = s) ∨
    (∃ u, s.currentOp = some u ∧ u.enabled s.eng = false ∧ microStep s = s) ∨
    (∃ u, s.currentOp = some u ∧ u.enabled s.eng = true ∧ microStep s = advance (u.effect s)) := by
  unfold microStep
  cases h : s.currentOp with
  | none => exact .inl ⟨rfl, rfl⟩
  | some u =>
    cases he : u.enabled s.eng
    · exact .inr (.inl ⟨u, rfl, he, by simp [he]⟩)
    · exact .inr (.inr ⟨u, rfl, he, by simp [he]⟩)

/-- No micro-operation moves the BTC's own position or list. -/
@[simp] theorem effect_ulist (u : MicroOp) (s : State) : (u.effect s).ulist = s.ulist := by cases u <;> rfl
@[simp] theorem effect_btcStep (u : MicroOp) (s : State) : (u.effect s).btcStep = s.btcStep := by cases u <;> rfl
@[simp] theorem effect_btcXyz (u : MicroOp) (s : State) : (u.effect s).btcXyz = s.btcXyz := by cases u <;> rfl
@[simp] theorem effect_fault (u : MicroOp) (s : State) : (u.effect s).fault = s.fault := by cases u <;> rfl
@[simp] theorem effect_cfg (u : MicroOp) (s : State) : (u.effect s).cfg = s.cfg := by cases u <;> rfl
@[simp] theorem effect_tpc (u : MicroOp) (s : State) : (u.effect s).tpc = s.tpc := by cases u <;> rfl
@[simp] theorem effect_phase (u : MicroOp) (s : State) : (u.effect s).phase = s.phase := by cases u <;> rfl
@[simp] theorem effect_run (u : MicroOp) (s : State) : (u.effect s).run = s.run := by cases u <;> rfl
@[simp] theorem effect_emitq (u : MicroOp) (s : State) : (u.effect s).emitq = s.emitq := by cases u <;> rfl
@[simp] theorem effect_out (u : MicroOp) (s : State) : (u.effect s).out = s.out := by cases u <;> rfl
@[simp] theorem effect_slv (u : MicroOp) (s : State) : (u.effect s).slv = s.slv := by cases u <;> rfl

/-- What a micro-operation appends to ACT. -/
theorem effect_act (u : MicroOp) (s : State) :
    (u.traced = false ∧ (u.effect s).act = s.act) ∨
    (u.traced = true ∧ ∃ a : Action, a.op = u ∧ (u.effect s).act = s.act ++ [a]) := by
  cases u <;>
    first
    | exact .inl ⟨rfl, rfl⟩
    | exact .inr ⟨rfl, _, rfl, rfl⟩

/-- Moving on leaves the engine fields and the reference engine's mode. -/
@[simp] theorem advance_eng (s : State) : (advance s).eng = s.eng := by
  rcases advance_cases s with ⟨-, h⟩ | ⟨-, -, h⟩ | ⟨-, -, h⟩ <;> rw [h] <;> rfl
@[simp] theorem advance_mode (s : State) : (advance s).mode = s.mode := by
  rcases advance_cases s with ⟨-, h⟩ | ⟨-, -, h⟩ | ⟨-, -, h⟩ <;> rw [h] <;> rfl

/-- The current micro-operation is the first of the remaining ones. -/
theorem remaining_of_currentOp {s : State} {u : MicroOp} (h : s.currentOp = some u) :
    s.remaining = u :: s.ulist.drop s.btcStep := by
  unfold State.currentOp at h
  unfold State.remaining
  split at h
  · cases h
  · rename_i h0
    obtain ⟨h1, h2⟩ := List.getElem?_eq_some_iff.1 h
    rw [if_neg h0, List.drop_eq_getElem_cons h1, h2]
    congr 2
    omega

/-- Moving on drops the first of the remaining micro-operations. -/
theorem advance_remaining (s : State) : (advance s).remaining = s.ulist.drop s.btcStep := by
  rcases advance_cases s with ⟨-, h⟩ | ⟨h0, -, h⟩ | ⟨h0, -, h⟩ <;> rw [h] <;> simp [State.remaining]
  all_goals omega

/-! ### The host port -/

/-- All that serving the host can do. -/
theorem hostServe_cases (s : State) :
    (s.hostq = [] ∧ hostServe s = .next s) ∨
    (s.idle = false ∧ hostServe s = .next s) ∨
    (∃ r rest, s.hostq = r :: rest ∧ s.idle = true ∧ hostServe s = hostAccess r { s with hostq := rest }) := by
  unfold hostServe
  cases h : s.hostq with
  | nil => exact .inl ⟨rfl, rfl⟩
  | cons r rest =>
    cases hi : s.idle
    · exact .inr (.inl ⟨rfl, by simp⟩)
    · exact .inr (.inr ⟨r, rest, rfl, rfl, by simp⟩)

theorem storeReg_cases (off : BitVec 8) (store : State → State) (s : State) :
    (s.run = true ∧ storeReg off store s = raise .clfown (accessInfo true off) s) ∨
    (s.run = false ∧ storeReg off store s = store s) := by
  unfold storeReg
  cases s.run <;> simp

/-! ### The tick program -/

/-- What presenting a word in the tick program can do: the word's own effect, and `k` after it if no fault is set. -/
theorem present_cases (cw : Word) (k : State → State) (s : State) :
    ∃ t, acceptWord cw s = .next t ∧ present cw k s = .next (if t.fault = 0 then k t else t) := by
  obtain ⟨t, ht⟩ := acceptWord_next cw s
  exact ⟨t, ht, by unfold present; rw [ht]⟩

/-- All that a step of the SBMC sequencer can do. -/
theorem sbmcStep_cases (s : State) :
    (s.btcStep ≠ 0 ∧ sbmcStep s = .next (microStep s)) ∨
    (s.btcStep = 0 ∧ s.fault ≠ 0 ∧ sbmcStep s = .next s) ∨
    (s.btcStep = 0 ∧ s.fault = 0 ∧ sbmcStep s = tickRow s) := by
  unfold sbmcStep
  by_cases hb : s.btcStep = 0
  · by_cases hf : s.fault = 0
    · exact .inr (.inr ⟨hb, hf, by rw [if_neg (by simpa using hb), if_neg (by simpa using hf)]⟩)
    · exact .inr (.inl ⟨hb, hf, by rw [if_neg (by simpa using hb), if_pos hf]⟩)
  · exact .inl ⟨hb, if_pos hb⟩

/-- All that `emitNext` can do. -/
theorem emitNext_cases (s : State) :
    (s.emitq = [] ∧ emitNext s = { s with tpc := .wait }) ∨
    (∃ c rest, s.emitq = c :: rest ∧
      emitNext s = { s with emitq := rest, otx := { data0 := c.b0, data1 := c.b1, busy := true }, out := s.out ++ [c] }) := by
  unfold emitNext
  cases h : s.emitq with
  | nil => exact .inl ⟨rfl, rfl⟩
  | cons c rest => exact .inr ⟨c, rest, rfl, rfl⟩

/-! ### The reference engine -/

/-- All that a step of the reference engine can do. -/
theorem engineStep_cases (s : State) :
    (s.engineEnabled = false ∧ engineStep s = s) ∨
    (s.mode = .idle ∧ s.eng.stt = true ∧ s.eng.tr = true ∧ engineStep s = engStartW s) ∨
    (s.mode = .txOpen ∧ s.eng.txrdy = false ∧ engineStep s = engTx s) ∨
    (s.mode = .txOpen ∧ s.eng.txrdy = true ∧ s.eng.stp = true ∧ s.eng.stt = false ∧ engineStep s = engStopW s) ∨
    (s.mode = .txOpen ∧ s.eng.txrdy = true ∧ s.eng.stt = true ∧ s.eng.tr = false ∧ engineStep s = engStartR s) ∨
    (s.mode = .rxOpen ∧ s.eng.rxrdy = false ∧ engineStep s = engRx s) := by
  unfold engineStep State.engineEnabled engineMove
  cases hm : s.mode
  · simp
  · cases h1 : s.eng.stt <;> cases h2 : s.eng.tr <;> simp
  · cases h0 : s.eng.txrdy <;> cases h1 : s.eng.stt <;> cases h2 : s.eng.tr <;> cases h3 : s.eng.stp <;> simp
  · cases h1 : s.eng.rxrdy <;> simp
  · simp

/-! ### The step -/

/-- The step performs the next event on the state with that event taken out. -/
theorem step_eq (s : State) : step s = perform s.nextEvent s.eventTaken := rfl

theorem nextEvent_cons {s : State} {ev : Event} {rest : List Event} (h : s.sched = ev :: rest) :
    s.nextEvent = ev := by
  unfold State.nextEvent
  rw [h]

end Sys2Proof.Machine
end

