-- ==== Sys2Proof/Laws/Nack.lean ====
section
/-! SUPPORT. The single-byte NACK window and the premise NACK1 (spec/70_reset_and_hazards.md R317). -/

namespace Sys2Proof.Machine

/-- In the window the current micro-operation is `W_STT` or `NACKSTOP`. -/
theorem currentOp_of_inNackWindow {s : State} (h : s.inNackWindow) :
    s.currentOp = some .wStt ∨ s.currentOp = some .nackStop := by
  have head : s.remaining.head? = s.currentOp := by
    unfold State.remaining State.currentOp
    split
    · rfl
    · exact List.head?_drop
  rcases h with h | h <;> rw [h] at head
  · exact .inl head.symm
  · exact .inr head.symm

/-- A micro-operation never sets RXRDY. -/
theorem microStep_rxrdy (s : State) (h : s.eng.rxrdy = false) : (microStep s).eng.rxrdy = false := by
  rcases microStep_cases s with ⟨-, e⟩ | ⟨_, -, -, e⟩ | ⟨u, -, -, e⟩ <;> rw [e]
  · exact h
  · exact h
  · rw [advance_eng]
    cases u <;> first | rfl | exact h

/-- R317: under the BTC-first schedule NACK1 holds, in every state where the BTC and the reference engine agree. -/
theorem nack1_of_btcFirst {s : State} (hb : BusInv s) (hs : s.sched = []) : s.nack1 := by
  intro hw hr t ht
  have hop := currentOp_of_inNackWindow hw
  have hstep : s.btcStep ≠ 0 := by
    intro h0
    simp [State.currentOp, h0] at hop
  have hidle : s.idle = false := by simp [State.idle, hstep]
  have hev : s.nextEvent = btcFirst s := by
    unfold State.nextEvent
    rw [hs]
  have htaken : s.eventTaken = s := by
    unfold State.eventTaken
    rw [hs, List.tail_nil, ← hs]
  rw [step_eq, hev, htaken] at ht
  by_cases hen : s.sbmcEnabled = true
  · rw [show btcFirst s = .sbmc by simp [btcFirst, hen], perform, sbmcStep, if_pos hstep] at ht
    injection ht with ht
    exact ht ▸ microStep_rxrdy s hr
  · have hstt : s.eng.stt = true := by
      rcases hop with hop | hop
      · simpa [State.sbmcEnabled, hstep, State.btcEnabled, hop, MicroOp.enabled] using hen
      · simp [State.sbmcEnabled, hstep, State.btcEnabled, hop, MicroOp.enabled] at hen
    have hmode : s.mode ≠ .rxOpen := fun hm => by simp [(hb.receiving hm).2] at hstt
    by_cases heng : s.engineEnabled = true
    · rw [show btcFirst s = .engine by simp [btcFirst, hen, hidle, heng], perform] at ht
      injection ht with ht
      rcases engineStep_cases s with ⟨-, e⟩ | ⟨-, -, -, e⟩ | ⟨-, -, e⟩ | ⟨-, -, -, -, e⟩ | ⟨-, -, -, -, e⟩ | ⟨hm, -, -⟩
      · rw [← ht, e]; exact hr
      · rw [← ht, e, engStartW]; split <;> exact hr
      · rw [← ht, e]; exact hr
      · rw [← ht, e]; exact hr
      · rw [← ht, e]; exact hr
      · exact absurd hm hmode
    · rw [show btcFirst s = .otx by simp [btcFirst, hen, hidle, heng], perform] at ht
      injection ht with ht
      rw [← ht]
      exact hr

/-- Where NACK1 has held through the window, NACKSTOP finds no byte received, so that the first byte the engine then
receives is answered with NACK and STOP (R80). -/
theorem nackStop_before_reception {s t : State} (hw : s.remaining = [.nackStop, .wRx, .rx 0])
    (hr : s.eng.rxrdy = false) (ht : sbmcStep s = .next t) :
    t.eng.stp = true ∧ t.eng.rxrdy = false ∧ t.remaining = [.wRx, .rx 0] := by
  have hop : s.currentOp = some .nackStop := by
    rcases currentOp_of_inNackWindow (.inr hw) with h | h
    · rw [remaining_of_currentOp h] at hw
      cases hw
    · exact h
  have hdrop := remaining_of_currentOp hop
  rw [hw] at hdrop
  injection hdrop with _ hdrop
  have hstep : s.btcStep ≠ 0 := by
    intro h0
    simp [State.currentOp, h0] at hop
  have e : t = advance (MicroOp.nackStop.effect s) := by
    rw [sbmcStep, if_pos hstep, microStep, hop] at ht
    injection ht with ht
    exact ht.symm
  subst e
  refine ⟨by rw [advance_eng]; rfl, by rw [advance_eng]; exact hr, ?_⟩
  rw [advance_remaining]
  exact hdrop.symm

end Sys2Proof.Machine
end

