-- ==== Sys2Proof/Laws/PerInstr.lean ====
section
/-! SUPPORT. Facts about every command as syntax, one lemma per constructor. `EncodesRow`: the encoding of a command
selects the row of the opcode map that bears its mnemonic (spec/30_encoding.md R113). -/

namespace Sys2Proof.Laws

/-- A word given by its fields selects a row given by its fields when each field does. -/
theorem commandWord_selects {n : String} {opc a b c mo ma mb mc vo va vb vc : Byte}
    (ho : opc &&& mo = vo) (ha : a &&& ma = va) (hb : b &&& mb = vb) (hc : c &&& mc = vc) :
    (OpcodeRow.mk n (commandWord vo va vb vc) (commandWord mo ma mb mc)).selects (commandWord opc a b c) = true := by
  subst ho ha hb hc
  simp only [OpcodeRow.selects, commandWord, beq_iff_eq]
  exact commandWord_and _ _ _ _ _ _ _ _

def EncodesRow.Statement (i : Instr) : Prop :=
  ∃ r ∈ opcodeRows, r.mnemonic = i.mnemonic ∧ r.selects (encode i) = true

theorem EncodesRow.initm : EncodesRow.Statement .initm :=
  ⟨⟨"INITM", 0x01000000, 0xFFFFFFFF⟩, by decide, rfl, by decide⟩

theorem EncodesRow.setsa (addr : BusAddr) : EncodesRow.Statement (.setsa addr) :=
  ⟨⟨"SETSA", 0x02000000, 0xFF80FFFF⟩, by decide, rfl,
    commandWord_selects (mo := 0xFF) (ma := 0x80) (mb := 0xFF) (mc := 0xFF)
      (vo := 0x02) (va := 0) (vb := 0) (vc := 0) rfl (by revert addr; decide) rfl rfl⟩

theorem EncodesRow.wrb (data : Byte) : EncodesRow.Statement (.wrb data) :=
  ⟨⟨"WRB", 0x03000000, 0xFF00FFFF⟩, by decide, rfl,
    commandWord_selects (mo := 0xFF) (ma := 0x00) (mb := 0xFF) (mc := 0xFF)
      (vo := 0x03) (va := 0) (vb := 0) (vc := 0) rfl BitVec.and_zero rfl rfl⟩

theorem EncodesRow.wrbs (length : Byte) : EncodesRow.Statement (.wrbs length) :=
  ⟨⟨"WRBS", 0x04000000, 0xFF00FFFF⟩, by decide, rfl,
    commandWord_selects (mo := 0xFF) (ma := 0x00) (mb := 0xFF) (mc := 0xFF)
      (vo := 0x04) (va := 0) (vb := 0) (vc := 0) rfl BitVec.and_zero rfl rfl⟩

theorem EncodesRow.wrr (reg data : Byte) : EncodesRow.Statement (.wrr reg data) :=
  ⟨⟨"WRR", 0x05000000, 0xFF0000FF⟩, by decide, rfl,
    commandWord_selects (mo := 0xFF) (ma := 0x00) (mb := 0x00) (mc := 0xFF)
      (vo := 0x05) (va := 0) (vb := 0) (vc := 0) rfl BitVec.and_zero BitVec.and_zero rfl⟩

theorem EncodesRow.rdr (reg : Byte) : EncodesRow.Statement (.rdr reg) :=
  ⟨⟨"RDR", 0x06000000, 0xFF00FFFF⟩, by decide, rfl,
    commandWord_selects (mo := 0xFF) (ma := 0x00) (mb := 0xFF) (mc := 0xFF)
      (vo := 0x06) (va := 0) (vb := 0) (vc := 0) rfl BitVec.and_zero rfl rfl⟩

theorem EncodesRow.rdrs (firstAddr count : Byte) : EncodesRow.Statement (.rdrs firstAddr count) :=
  ⟨⟨"RDRS", 0x07000000, 0xFF0000FF⟩, by decide, rfl,
    commandWord_selects (mo := 0xFF) (ma := 0x00) (mb := 0x00) (mc := 0xFF)
      (vo := 0x07) (va := 0) (vb := 0) (vc := 0) rfl BitVec.and_zero BitVec.and_zero rfl⟩

theorem EncodesRow.rdxyz : EncodesRow.Statement .rdxyz :=
  ⟨⟨"RDXYZ", 0x10000000, 0xFFFFFFFF⟩, by decide, rfl, by decide⟩

theorem EncodesRow.dec12 (low high : Byte) : EncodesRow.Statement (.dec12 low high) :=
  ⟨⟨"DEC12", 0x11000000, 0xFF0000FF⟩, by decide, rfl,
    commandWord_selects (mo := 0xFF) (ma := 0x00) (mb := 0x00) (mc := 0xFF)
      (vo := 0x11) (va := 0) (vb := 0) (vc := 0) rfl BitVec.and_zero BitVec.and_zero rfl⟩

theorem EncodesRow.sclr : EncodesRow.Statement .sclr :=
  ⟨⟨"SCLR", 0x12000000, 0xFFFFFFFF⟩, by decide, rfl, by decide⟩

theorem EncodesRow.sacc : EncodesRow.Statement .sacc :=
  ⟨⟨"SACC", 0x13000000, 0xFFFFFFFF⟩, by decide, rfl, by decide⟩

theorem EncodesRow.savg : EncodesRow.Statement .savg :=
  ⟨⟨"SAVG", 0x14000000, 0xFFFFFFFF⟩, by decide, rfl, by decide⟩

theorem EncodesRow.updv : EncodesRow.Statement .updv :=
  ⟨⟨"UPDV", 0x20000000, 0xFFFFFFFF⟩, by decide, rfl, by decide⟩

theorem EncodesRow.updd : EncodesRow.Statement .updd :=
  ⟨⟨"UPDD", 0x21000000, 0xFFFFFFFF⟩, by decide, rfl, by decide⟩

theorem EncodesRow.run : EncodesRow.Statement .run :=
  ⟨⟨"RUN", 0x30000000, 0xFFFFFFFF⟩, by decide, rfl, by decide⟩

end Sys2Proof.Laws
end

