-- ==== Sys2Proof/Tests/Slice0.lean ====
section
/-! SUPPORT. Tests. Expected values are those of spec/95_test_vectors.md (the vector's name stands before each), or a hand
calculation from the cited rule. After the tests, one theorem for each statement that has hypotheses: a state and operands
that meet them. -/

open Sys2Proof Sys2Proof.Machine

namespace Sys2Proof.Tests

/-! ### A build and small states (95_test_vectors.md section 0) -/

def exParams : OpenParams where
  sensorAddr := 0x2A
  regData0 := 0x20
  regCtrl := 0x10
  valActive := 0x01
  valCal := 0x03
  regOfs0 := 0x30
  regId := 0x0F
  distTarget := 3
  dwellTicks := 1
  cmdSpeed := [⟨0xC1, 0x10⟩, ⟨0xC1, 0x20⟩]
  cmdStop := ⟨0xC1, 0x00⟩
  cmdReverse := ⟨0xC9, 0x20⟩
  tTick := 0
  pwrSettle := 0
  calSettle := 0

def exCfg : Config := { params := exParams, slvAddr := 0x2A }

def quietEng : Eng := ⟨0x2A, true, false, false, 0, false, 0, false, false⟩

/-- After reset, the free engine fields all set. -/
def fresh : State :=
  { State.reset with
    cfg := exCfg
    eng := ⟨0x11, false, true, true, 0x99, true, 0x99, true, true⟩
    otx := ⟨0, 0, false⟩
    slv := ⟨0, false, []⟩ }

/-- After boot: INITM, SETSA 0x2A, WRR 0x10, 0x01. -/
def booted : State :=
  { fresh with
    eng := quietEng, mode := .idle, sa := 0x2A, saValid := true, initDone := true
    slv := ⟨0x11, false, [(0x10, 0x01)]⟩ }

/-- At the one micro-operation `u`. -/
def atOp (u : MicroOp) : State := { booted with ulist := [u], btcStep := 1 }

/-- In AUTO mode, after RUN. -/
def auto : State := { booted with run := true }

/-- In AUTO mode at a position of the tick program. -/
def autoAt (p : TickPos) : State := { auto with tpc := p }

/-- Both speed commands handed over: cruising, at the position `p`. -/
def cruisingAt (p : TickPos) : State :=
  { auto with phase := .cruisingForward, ramp := 2, out := exParams.cmdSpeed, tpc := p }

/-- On the way back, at the position `p`. -/
def reversingAt (p : TickPos) : State :=
  { auto with
    phase := .reversing, ramp := 2, tpc := p, out := exParams.cmdSpeed ++ [exParams.cmdStop, exParams.cmdReverse] }

/-- The course has ended. -/
def stopped : State :=
  { auto with
    phase := .stopped, ramp := 2
    out := exParams.cmdSpeed ++ [exParams.cmdStop, exParams.cmdReverse, exParams.cmdStop] }

/-- A BADLEN refusal has been taken. -/
def frozen : State := { booted with fault := 0x02, finfo := 0x07000000 }

/-- The state a step answers, for reading one field of it; the given state where the step stops. -/
def after (s : State) : Host.Outcome State Fault Refusal → State
  | .next t => t
  | .fault _ => s
  | .refused _ => s

/-! ### Well-formedness: each check refuses a term that fails only it -/

theorem test_wf_build : exCfg.wellFormed = true := by decide
theorem test_wf_refuses_scale_0 : { exCfg with scale := 0 }.wellFormed = false := by decide
theorem test_wf_refuses_dt_0 : { exCfg with dt := 0 }.wellFormed = false := by decide
theorem test_wf_refuses_dt_large : { exCfg with dt := 2 ^ 31 }.wellFormed = false := by decide
theorem test_wf_refuses_navg_5 : { exCfg with nAvg := 5 }.wellFormed = false := by decide
theorem test_wf_refuses_mask_12 : { exCfg with maskBits := 12 }.wellFormed = false := by decide
theorem test_wf_refuses_rxb_6 : { exCfg with rxbDepth := 6 }.wellFormed = false := by decide
theorem test_wf_refuses_rxb_256 : { exCfg with rxbDepth := 256 }.wellFormed = false := by decide
theorem test_wf_refuses_txb_0 : { exCfg with txbDepth := 0 }.wellFormed = false := by decide
theorem test_wf_refuses_txb_256 : { exCfg with txbDepth := 256 }.wellFormed = false := by decide
theorem test_wf_refuses_width_64 : { exCfg with width := 64 }.wellFormed = false := by decide
theorem test_wf_refuses_sa_8 : { exCfg with saBits := 8 }.wellFormed = false := by decide
theorem test_wf_refuses_wait_limit : { exCfg with waitLimit := some 100 }.wellFormed = false := by decide
/-- The ends of the depths' ranges (R6). -/
theorem test_wf_depths :
    { exCfg with rxbDepth := 7, txbDepth := 1 }.wellFormed = true ∧
    { exCfg with rxbDepth := 255, txbDepth := 255 }.wellFormed = true := by decide
theorem test_wf_refuses_no_speed :
    { exCfg with params := { exParams with cmdSpeed := [] } }.wellFormed = false := by decide
theorem test_wf_refuses_256_speeds :
    ∀ l : List DriveCommand, l.length = 256 →
      { exCfg with params := { exParams with cmdSpeed := l } }.wellFormed = false := by
  intro l h
  simp [Config.wellFormed, Config.nRamp, h]
/-- No term of Instr is ill-formed: the operand types are the fields' widths. -/
theorem test_wf_every_command (i : Instr) : i.wellFormed = true := by cases i <;> rfl

/-! ### Decoding: one word for each row, `OPC`, `A`, `B`, `C` written out from R110 and R113 -/

theorem test_decode_initm : decode 0b00000001_00000000_00000000_00000000 = .ok .initm := by decide
theorem test_decode_setsa : decode 0b00000010_00101010_00000000_00000000 = .ok (.setsa 0x2A) := by decide
theorem test_decode_wrb : decode 0b00000011_01011010_00000000_00000000 = .ok (.wrb 0x5A) := by decide
theorem test_decode_wrbs : decode 0b00000100_00000010_00000000_00000000 = .ok (.wrbs 2) := by decide
theorem test_decode_wrr : decode 0b00000101_00010000_00000001_00000000 = .ok (.wrr 0x10 0x01) := by decide
theorem test_decode_rdr : decode 0b00000110_01000000_00000000_00000000 = .ok (.rdr 0x40) := by decide
theorem test_decode_rdrs : decode 0b00000111_00100000_00010000_00000000 = .ok (.rdrs 0x20 16) := by decide
theorem test_decode_rdxyz : decode 0b00010000_00000000_00000000_00000000 = .ok .rdxyz := by decide
theorem test_decode_dec12 : decode 0b00010001_00110100_11110010_00000000 = .ok (.dec12 0x34 0xF2) := by decide
theorem test_decode_sclr : decode 0b00010010_00000000_00000000_00000000 = .ok .sclr := by decide
theorem test_decode_sacc : decode 0b00010011_00000000_00000000_00000000 = .ok .sacc := by decide
theorem test_decode_savg : decode 0b00010100_00000000_00000000_00000000 = .ok .savg := by decide
theorem test_decode_updv : decode 0b00100000_00000000_00000000_00000000 = .ok .updv := by decide
theorem test_decode_updd : decode 0b00100001_00000000_00000000_00000000 = .ok .updd := by decide
theorem test_decode_run : decode 0b00110000_00000000_00000000_00000000 = .ok .run := by decide
/-- FLT-5. -/
theorem test_decode_refuses_unassigned :
    [0x00000000, 0xFFFFFFFF, 0x08000000, 0x31000000].map decode
      = List.replicate 4 (.error .unassignedOpcode) := by decide
/-- FLT-6. -/
theorem test_decode_refuses_reserved :
    [0x02800000, 0x01000001, 0x03005A00].map decode = List.replicate 3 (.error .reservedField) := by decide
theorem test_decode_table_word : decodeTableWord 32 0x05100100 = some (.wrr 0x10 0x01) := by decide
theorem test_encode_wrr : encode (.wrr 0x30 0xFD) = 0x0530FD00 := by decide

/-! ### One step of each command -/

/-- BTC-1: no `W_IDLE` before the first INITM. -/
theorem test_initm_first : (after fresh (exec .initm fresh)).ulist = [.init] := by decide
/-- BTC-15. -/
theorem test_initm_again : (after booted (exec .initm booted)).ulist = [.wIdle, .init] := by decide
/-- BTC-3: legal before INITM. -/
theorem test_setsa_first : (after fresh (exec (.setsa 0x2A) fresh)).ulist = [.latchSa 0x2A] := by decide
/-- BTC-2. -/
theorem test_latch_sa : (after fresh (sbmcStep { fresh with ulist := [.latchSa 0x2A], btcStep := 1 })).bctl = 0x12A := by
  decide
/-- BTC-4. -/
theorem test_wrb : ((after booted (exec (.wrb 0x5A) booted)).ulist.filter MicroOp.traced)
    = [.startW, .tx 0x5A, .stop] := by decide
/-- BTC-5: the highest index first. -/
theorem test_wrbs :
    let s := { booted with txb := (booted.txb.set 0 0x34).set 1 0x12 }
    (after s (exec (.wrbs 2) s)).ulist.filter MicroOp.traced = [.startW, .tx 0x12, .tx 0x34, .stop] := by decide
/-- FLT-7: WRBS 17. -/
theorem test_wrbs_17 : (after booted (exec (.wrbs 17) booted)).fault = 0x02 := by decide
/-- BTC-6. -/
theorem test_wrr : (after booted (exec (.wrr 0x10 0x01) booted)).ulist.filter MicroOp.traced
    = [.startW, .tx 0x10, .tx 0x01, .stop] := by decide
/-- BTC-7. -/
theorem test_rdr : (after booted (exec (.rdr 0x40) booted)).ulist.filter MicroOp.traced
    = [.startW, .tx 0x40, .startR, .nackStop, .rx 0] := by decide
/-- FLT-3. -/
theorem test_rdr_noinit :
    let t := after fresh (exec (.rdr 0x40) fresh)
    t.fault = 0x04 ∧ t.finfo = 0x06400000 := by decide
/-- R283 in a build with RXB_DEPTH = 7: 7 is accepted, 8 refused. -/
theorem test_rdrs_depth :
    let s := { booted with cfg := { exCfg with rxbDepth := 7 } }
    (after s (exec (.rdrs 0x20 7) s)).fault = 0 ∧ (after s (exec (.rdrs 0x20 8) s)).fault = 0x02 := by decide
/-- L1-4, n = 3. -/
theorem test_rdrs_3 : (after booted (exec (.rdrs 0x20 3) booted)).ulist.filter MicroOp.traced
    = [.startW, .tx 0x20, .startR, .rx 0, .nackStop, .rx 1, .rx 2] := by decide
/-- FLT-1: BADLEN before NOINIT. -/
theorem test_rdrs_0 :
    let t := after fresh (exec (.rdrs 0 0) fresh)
    t.fault = 0x02 ∧ t.finfo = 0x07000000 := by decide
/-- SFU-9: the list. -/
theorem test_rdxyz_list : (after booted (exec .rdxyz booted)).ulist.filter MicroOp.traced
    = [.startW, .tx 0x20, .startR, .rx 0, .rx 1, .rx 2, .rx 3, .rx 4, .nackStop, .rx 5, .rx 6] := by decide
/-- SFU-9: the last reception decodes. -/
theorem test_rdxyz_last :
    let rxb := ((((booted.rxb.set 0 0x34).set 2 0xFF).set 3 0x0F).set 5 0x01)
    let t := after booted (sbmcStep { atOp (.rx 6) with
      btcXyz := true, rxb := rxb, eng := { quietEng with rxbuf := 0x07 } })
    t.sx = 52 ∧ t.sy = 0xFFFFFFFF ∧ t.sz = 256 ∧ t.sst = 0x07 ∧ t.res = 0x07 := by decide
/-- SFU-2, SFU-3, SFU-4. -/
theorem test_dec12_ends :
    [exec (.dec12 0xFF 0x07) booted, exec (.dec12 0x00 0x08) booted, exec (.dec12 0xFF 0x0F) booted].map
      (fun o => (after booted o).res) = [0x000007FF, 0xFFFFF800, 0xFFFFFFFF] := by decide
/-- SFU-6. -/
theorem test_dec12_ignores_high_nibble : (after booted (exec (.dec12 0x34 0xF2) booted)).res = 0x234 := by decide
/-- SFU-10. -/
theorem test_sclr :
    let t := after booted (exec .sclr { booted with sum := 77, scnt := 3 })
    t.sum = 0 ∧ t.scnt = 0 := by decide
/-- SFU-11. -/
theorem test_sacc :
    let t := after booted (exec .sacc { booted with sum := 300, scnt := 3, sx := 102 })
    t.sum = 402 ∧ t.scnt = 4 := by decide
/-- SFU-13. -/
theorem test_sacc_full :
    let t := after booted (exec .sacc { booted with sum := 402, scnt := 4 })
    t.fault = 0x10 ∧ t.finfo = 0x13000000 ∧ t.sum = 402 := by decide
/-- SFU-15. -/
theorem test_savg_truncates :
    ([-3, -4, -1, 7, 8188, -8192].map fun n =>
      (after booted (exec .savg { booted with sum := BitVec.ofInt 32 n, scnt := 4 })).acc.toInt)
      = [0, -1, 0, 1, 2047, -2048] := by decide
/-- SFU-17. -/
theorem test_savg_masks :
    ([400, -400, 60, -60].map fun n =>
      (after booted (exec .savg
        { booted with cfg := { exCfg with maskBits := 4 }, sum := BitVec.ofInt 32 n, scnt := 4 })).acc.toInt)
      = [96, -112, 0, -16] := by decide
/-- MIU-3, MIU-6, MIU-7. -/
theorem test_updv :
    ([-256, -15, 2047, -2048].map fun n =>
      (after booted (exec .updv { booted with acc := BitVec.ofInt 32 n })).vel.toInt) = [-25, -1, 204, -204] := by decide
/-- MIU-11. -/
theorem test_updv_iovf :
    let t := after booted (exec .updv { booted with acc := BitVec.ofInt 32 (-10), vel := 0x80000000 })
    t.fault = 0x20 ∧ t.finfo = 0x20000000 ∧ t.vel = 0x80000000 := by decide
/-- MIU-14: the product is not wrapped. -/
theorem test_updd_wide :
    let t := after booted (exec .updd { booted with vel := 0x7FFFFFFF, dist := 0x73333333 })
    t.dist = 0x7FFFFFFF ∧ t.fault = 0 := by decide
/-- MIU-14, one more. -/
theorem test_updd_iovf :
    (after booted (exec .updd { booted with vel := 0x7FFFFFFF, dist := 0x73333334 })).fault = 0x20 := by decide
/-- CLF-2. -/
theorem test_run :
    let t := after booted (exec .run { booted with vel := 55, dist := 99 })
    t.cls = 0x00000004 ∧ t.vel = 0 ∧ t.dist = 0 := by decide
/-- CLF-8. -/
theorem test_clfown :
    let t := after auto (hostWrite 0x00 0x12000000 auto)
    t.fault = 0x80 ∧ t.finfo = 0x12000000 := by decide

/-! ### The host port, the tick, the engine: one step each -/

/-- FLT-2: ILLCMD before BADLEN. -/
theorem test_illcmd :
    let t := after fresh (acceptWord 0x07001101 fresh)
    t.fault = 0x01 ∧ t.finfo = 0x07001101 := by decide
/-- HST-2. -/
theorem test_write_txb : (hostRead 0x4C (after fresh (hostWrite 0x4C 0x1234 fresh))).hrdata = 0x34 := by decide
/-- HST-4. -/
theorem test_read_unaligned :
    let t := hostRead 0x02 fresh
    t.fault = 0x40 ∧ t.finfo = 0xFF000002 ∧ t.hrdata = 0 := by decide
/-- R281 (c): after a fault an illegal read returns 0, whatever the last read returned. -/
theorem test_read_illegal_frozen :
    let t := hostRead 0xC0 { frozen with hrdata := 0x55 }
    t.hrdata = 0 ∧ t.fault = 0x02 ∧ t.finfo = 0x07000000 := by decide
/-- HST-7: HACC is tested before CLFOWN. -/
theorem test_write_read_only : (after auto (hostWrite 0x10 0 auto)).finfo = 0xFF000110 := by decide
/-- CLF-5: two ticks before T_START. -/
theorem test_two_ticks : (tickArrive (tickArrive auto)).status = 0x00000003 := by decide
/-- P4, the end of tick 3: the stop command, and the dwell. -/
theorem test_phev_stop :
    let t := after auto (sbmcStep { cruisingAt .phev with dist := 6, vel := 30 })
    t.emitq = [⟨0xC1, 0x00⟩] ∧ t.cls = 0x00010205 := by decide
/-- P4, tick 4: the dwell ends in the reverse command. -/
theorem test_dwell_tick :
    let t := after auto (sbmcStep { cruisingAt .wait with tickPend := true, dwell := 1, vel := 30 })
    t.emitq = [⟨0xC9, 0x20⟩] ∧ t.cls = 0x00000206 ∧ t.vel = 0 := by decide
/-- BTC-13: nobody acknowledges the address. -/
theorem test_nack :
    (engineStep { booted with eng := { quietEng with sa := 0x2B, stt := true } }).wire = [.s, .ad 0x2B false, .nackS] := by
  decide
/-- BTC-7: the only byte of a read is answered with NACK and STOP. -/
theorem test_last_byte :
    let s := { booted with
      mode := .rxOpen, eng := { quietEng with tr := false, stp := true, busy := true }, slv := ⟨0x40, false, [(0x40, 0x7E)]⟩ }
    (engineStep s).wire = [.dr 0x7E, .nackM, .p] ∧ (engineStep s).eng.rxbuf = 0x7E := by decide
/-- What the reads of CALZ return where SX, SY, SZ are 3, −2, 250 after each RDXYZ; 0 after each write. -/
def calzAnswers : List Word := [0, 0, 3, -2, 250, 0, 0, 0] ++ [0, 0, 3, -2, 250, 0, 0, 0] ++ [0]
/-- L1-7, the second case: the words of CALZ, and its offsets. -/
theorem test_calz_words :
    let r := (procCalz exCfg).replay calzAnswers
    r.1.filterMap (fun r => match r with | .write _ w => some w | .read _ => none)
      = [0x05100300, 0x10000000, 0x0530FD00, 0x05310200, 0x05320600] ++
        [0x05100300, 0x10000000, 0x0530FA00, 0x05310400, 0x05320C00, 0x05100100] ∧
    r.2 = some ⟨-6, 4, 12⟩ := by decide
/-- R207 reads SX, SY and SZ in each pass, and nothing else. -/
theorem test_calz_reads :
    (((procCalz exCfg).replay calzAnswers).1.filterMap
      (fun r => match r with | .write _ _ => none | .read off => some off))
      = [0x24, 0x28, 0x2C, 0x24, 0x28, 0x2C] := by decide
/-- A one-byte read between its `W_STT` and its NACKSTOP, the engine in receive mode. -/
def inWindow : State :=
  { booted with
    ulist := readOneList 0x40, btcStep := 8, mode := .rxOpen, eng := { quietEng with tr := false, busy := true } }
/-- R317: the BTC-first schedule takes NACKSTOP; the engine may also receive, and then NACK1 is broken. -/
theorem test_nack_window :
    (∃ t, step inWindow = .next t ∧ t.eng.stp = true ∧ t.eng.rxrdy = false) ∧
    (∃ t, step { inWindow with sched := [.engine] } = .next t ∧ t.eng.rxrdy = true ∧ t.wire = [.dr 0, .ackM]) ∧
    ¬ { inWindow with sched := [.engine] }.nack1 :=
  ⟨⟨_, rfl, rfl, rfl⟩, ⟨_, rfl, rfl, rfl⟩, fun h => by cases h (.inr rfl) rfl _ rfl⟩

/-! ### For each statement with hypotheses, a state and operands that meet them -/

theorem accepting_fresh : fresh.accepting := ⟨rfl, rfl, fun _ => rfl⟩
theorem accepting_booted : booted.accepting := ⟨rfl, rfl, fun _ => rfl⟩
theorem acceptingTransaction_booted : booted.acceptingTransaction := ⟨accepting_booted, rfl, rfl⟩

theorem witness_DecodeOfEncodeIsTheCommand : (Instr.setsa 0x7F).wellFormed = true := rfl
theorem witness_DecodeFollowsTheOpcodeMap :
    (opcodeRows.filter fun r => r.selects 0x05FFFF00) = [⟨"WRR", 0x05000000, 0xFF0000FF⟩] ∧
    (opcodeRows.filter fun r => r.selects 0x05FFFF01) = [] := by decide
theorem witness_StepRunsTheDecodedCommand :
    (let s := { booted with hostq := [.write 0x00 0x035A0000], sched := [.host] }
     s.idle = true ∧ s.hostq = .write 0x00 0x035A0000 :: [] ∧ decode 0x035A0000 = .ok (.wrb 0x5A) ∧
     s.sched.head? = some .host) ∧
    (let s := { booted with hostq := [.write 0x00 0x035A0000] }
     s.idle = true ∧ s.hostq = .write 0x00 0x035A0000 :: [] ∧ s.sched = [] ∧ s.sbmcEnabled = false) ∧
    booted.idle = true ∧ decodeTableWord 32 0x035A0000 = some (.wrb 0x5A) := by decide
theorem witness_HostRequestIsHeldUntilIdle :
    let s := { atOp .wTx with hostq := [.read 0x08], sched := [.host] }
    s.idle = false ∧ s.sched = .host :: [] := by decide
theorem witness_IllegalWordRaisesIllcmd :
    booted.accepting ∧ ∀ r ∈ opcodeRows, r.selects 0x02800000 = false := ⟨accepting_booted, by decide⟩
theorem witness_WordIsDiscardedOnceFaulted : (atOp .wTx).btcStep ≠ 0 ∧ frozen.fault ≠ 0 := by decide
theorem witness_BadLengthRaisesBadlen :
    fresh.accepting ∧ (0 : Byte).toNat = 0 ∧ fresh.cfg.txbDepth < (17 : Byte).toNat ∧
    fresh.cfg.rxbDepth < (17 : Byte).toNat := ⟨accepting_fresh, by decide⟩
theorem witness_TransactionBeforeInitmRaisesNoinit :
    fresh.accepting ∧ fresh.initDone = false ∧ isLegalTransaction fresh.cfg (.rdrs 0x20 16) = true :=
  ⟨accepting_fresh, by decide⟩
theorem witness_TransactionBeforeSetsaRaisesNoaddr :
    let s := { fresh with initDone := true }
    s.accepting ∧ isLegalTransaction s.cfg (.wrbs 1) = true ∧ s.initDone = true ∧ s.saValid = false :=
  ⟨⟨rfl, rfl, fun _ => rfl⟩, by decide⟩
theorem witness_InitmAndSetsaLoadTheirLists :
    (fresh.accepting ∧ fresh.initDone = false) ∧ booted.accepting ∧ booted.initDone = true :=
  ⟨⟨accepting_fresh, rfl⟩, accepting_booted, rfl⟩
theorem witness_WriteCommandsLoadTheirLists :
    booted.acceptingTransaction ∧ (1 ≤ (1 : Byte).toNat ∧ (1 : Byte).toNat ≤ booted.cfg.txbDepth) ∧
    1 ≤ (16 : Byte).toNat ∧ (16 : Byte).toNat ≤ booted.cfg.txbDepth := ⟨acceptingTransaction_booted, by decide⟩
theorem witness_ReadCommandsLoadTheirLists :
    booted.acceptingTransaction ∧ 1 ≤ booted.cfg.rxbDepth ∧
    (2 ≤ (2 : Byte).toNat ∧ (2 : Byte).toNat ≤ booted.cfg.rxbDepth) ∧
    2 ≤ (16 : Byte).toNat ∧ (16 : Byte).toNat ≤ booted.cfg.rxbDepth := ⟨acceptingTransaction_booted, by decide⟩
theorem witness_CommandsOfOneListAreEqual :
    let s := { booted with txb := (booted.txb.set 0 0x34).set 1 0x12 }
    s.acceptingTransaction ∧ s.cfg.wellFormed = true ∧ 2 ≤ s.cfg.txbDepth ∧ s.txb[0] = 0x34 ∧ s.txb[1] = 0x12 :=
  ⟨⟨⟨rfl, rfl, fun _ => rfl⟩, rfl, rfl⟩, by decide⟩
/-- Every wait is met, with its condition false in one state and true in the other. -/
theorem witness_WaitsOnlyAdvance :
    ∀ u ∈ [MicroOp.wIdle, .wTx, .wStt, .wStp, .wRx],
      ((atOp u).btcStep ≠ 0 ∧ (atOp u).currentOp = some u) ∧
      u.enabled ⟨0, true, true, true, 0, false, 0, false, true⟩ = false ∧
      u.enabled ⟨0, true, false, false, 0, true, 0, true, false⟩ = true := by decide
theorem witness_ActionsWriteWhatTheirRulesSay :
    ∀ u ∈ [MicroOp.init, .startW, .startR, .tx 0x5A, .stop, .nackStop, .rx 0, .rx 254, .latchSa 0x7F],
      (atOp u).btcStep ≠ 0 ∧ (atOp u).currentOp = some u := by decide
theorem witness_LastMicroOperationCompletesTheCommand :
    (let s := { booted with ulist := [.wStp, .stop], btcStep := 1 }; s.btcStep < s.ulist.length) ∧
    ((atOp .stop).ulist.length ≤ (atOp .stop).btcStep ∧ (atOp .stop).btcXyz = false) ∧
    (let s := { atOp (.rx 6) with btcXyz := true }; s.ulist.length ≤ s.btcStep ∧ s.btcXyz = true) := by decide
theorem witness_CommandListsHaveTheirLengths :
    (readList 0x20 1).length = 10 ∧ (readList 0x20 16).length = 40 := by decide
theorem witness_NackStopStandsBeforeTheLastByte :
    1 ≤ 1 ∧ (readList 0x20 1).countP MicroOp.isRx = 1 ∧ (readList 0x20 7).countP MicroOp.isRx = 7 := by decide
theorem witness_TransactionListsHaveTheirShape :
    1 ≤ 1 ∧ MicroOp.startR ∈ readList 0x20 1 ∧ MicroOp.startR ∈ readList 0x20 2 := by decide
/-- A write just started, before its first wait and before its last micro-operation. -/
theorem witness_ActFollowsTheCommandList :
    (let s := { booted with ulist := writeList [0x5A], btcStep := 1, sched := [.sbmc] }
     s.btcStep ≠ 0 ∧ s.btcStep ≤ s.ulist.length ∧ ActGrownBy [] s.ulist (s.btcStep - 1) s ∧
     (∃ t, step s = .next t ∧ t.btcStep = 2) ∧ s.nextEvent ≠ .rst) ∧
    (let s := { booted with ulist := writeList [0x5A], btcStep := 7, act := [.startW, .tx 0x5A, .stop], sched := [.sbmc] }
     s.btcStep ≠ 0 ∧ s.btcStep ≤ s.ulist.length ∧ ActGrownBy [] s.ulist (s.btcStep - 1) s ∧
     (∃ t, step s = .next t ∧ t.btcStep = 0) ∧ s.nextEvent ≠ .rst) :=
  ⟨⟨by decide, by decide, ⟨[], rfl, by decide⟩, ⟨_, rfl, rfl⟩, by decide⟩,
   by decide, by decide, ⟨[.startW, .tx 0x5A, .stop], rfl, by decide⟩, ⟨_, rfl, rfl⟩, by decide⟩
theorem witness_TransactionInProgressRaisesNoFault :
    let s := { atOp .stop with sched := [.sbmc] }
    s.btcStep ≠ 0 ∧ (∃ t, step s = .next t) ∧ s.nextEvent ≠ .rst := ⟨by decide, ⟨_, rfl⟩, by decide⟩
theorem witness_Dec12WritesTheDecodedSample : booted.accepting := accepting_booted
theorem witness_SclrClearsTheAccumulator : booted.accepting := accepting_booted
theorem witness_SaccAddsTheDriveSample :
    (∀ n ∈ [0#8, 3#8], { booted with scnt := n }.scnt.toNat < booted.cfg.nAvg) ∧
    booted.cfg.nAvg ≤ { booted with scnt := 4 }.scnt.toNat ∧ ∀ n, { booted with scnt := n }.accepting :=
  ⟨by decide, by decide, fun _ => ⟨rfl, rfl, fun _ => rfl⟩⟩
theorem witness_SavgDeliversTheMaskedAverage :
    { booted with scnt := 4 }.scnt.toNat = booted.cfg.nAvg ∧ { booted with scnt := 3 }.scnt.toNat ≠ booted.cfg.nAvg ∧
    ∀ n, { booted with scnt := n }.accepting := ⟨by decide, by decide, fun _ => ⟨rfl, rfl, fun _ => rfl⟩⟩
theorem witness_AverageStaysInTheSampleRange :
    exCfg.wellFormed = true ∧ exCfg.maskBits = 0 ∧
    -2048 * (exCfg.nAvg : Int) ≤ (-8192#32).toInt ∧ (8188#32).toInt ≤ 2047 * (exCfg.nAvg : Int) := by decide
theorem witness_UpdvUpdatesVelocity :
    let v := fun a p : Word => p.toInt + (a.toInt * (exCfg.dt : Int)).tdiv exCfg.scale
    v 10 0x7FFFFFFE = 2 ^ 31 - 1 ∧ v (-10) 0x80000001 = -2 ^ 31 ∧ 2 ^ 31 - 1 < v 10 0x7FFFFFFF ∧
    v (-10) 0x80000000 < -2 ^ 31 ∧ booted.cfg = exCfg := by decide
theorem witness_UpddUpdatesDistance :
    ∀ v d, { booted with vel := v, dist := d }.accepting := fun _ _ => ⟨rfl, rfl, fun _ => rfl⟩
theorem witness_IntegratorIsIdempotentAtRest :
    (booted.cfg.wellFormed = true ∧ booted.acc = 0 ∧ booted.vel = 0) ∧ booted.accepting :=
  ⟨by decide, accepting_booted⟩
theorem witness_IntegratorIsLinearUpToTruncation : exCfg.wellFormed = true := by decide
theorem witness_RunStartsTheCourse : booted.accepting ∧ booted.tpc = .wait := ⟨accepting_booted, rfl⟩
theorem witness_TickArriveSetsThePendingFlag :
    (let s := { auto with sched := [.tick] }
     s.sched = .tick :: [] ∧ s.run = true ∧ s.phase ≠ .stopped ∧ s.fault = 0 ∧ s.tickPend = false) ∧
    booted.run = false ∧ stopped.phase = .stopped ∧ frozen.fault ≠ 0 := by decide
/-- A tick pending, `d` left to dwell. -/
def tickAt (d : BitVec 16) : State := { cruisingAt .wait with tickPend := true, dwell := d }
/-- Each clause's values of DWELL: 0, 1, and the ends of the rest; and each way T_START is not enabled. -/
theorem witness_TickStartTakesThePendingTick :
    (∀ d, (tickAt d).idle = true ∧ (tickAt d).run = true ∧ (tickAt d).fault = 0 ∧ (tickAt d).phase ≠ .stopped ∧
      (tickAt d).tickPend = true ∧ (tickAt d).dwell = d) ∧
    ((2#16) ≠ 0 ∧ (2#16) ≠ 1 ∧ (65535#16) ≠ 0 ∧ (65535#16) ≠ 1) ∧
    (booted.idle = true ∧ booted.run = false) ∧ (frozen.idle = true ∧ frozen.fault ≠ 0) ∧
    (stopped.idle = true ∧ stopped.phase = .stopped) ∧ auto.idle = true ∧ auto.tickPend = false :=
  ⟨fun _ => ⟨rfl, rfl, rfl, (by intro h; cases h), rfl, rfl⟩, by decide⟩
theorem witness_TickProgramRowsDoWhatTheTableSays :
    (∀ p ∈ [TickPos.sclr, .read, .acc, .avg, .updv, .updd],
      (autoAt p).btcStep = 0 ∧ (autoAt p).fault = 0 ∧ (autoAt p).tpc = p) ∧
    ((autoAt .read).initDone = true ∧ (autoAt .read).saValid = true) ∧
    { autoAt .read with initDone := false }.initDone = false ∧
    { autoAt .read with saValid := false }.saValid = false ∧
    (autoAt .acc).scnt.toNat < (autoAt .acc).cfg.nAvg ∧
    { autoAt .avg with scnt := 4 }.scnt.toNat = (autoAt .avg).cfg.nAvg ∧
    fits32 (integrate exCfg 10 0x7FFFFFFE) = true ∧ fits32 (integrate exCfg 10 0x7FFFFFFF) = false := by decide
/-- Each phase; DIST on both sides of each threshold, at it too; with and without a dwell. -/
theorem witness_PhaseEvaluationFollowsThePhase :
    (∀ s ∈ [autoAt .phev, cruisingAt .phev, reversingAt .phev], s.btcStep = 0 ∧ s.fault = 0 ∧ s.tpc = .phev) ∧
    ((autoAt .phev).phase = .accelerating ∧ (autoAt .phev).ramp ≠ 255 ∧
      exCfg.params.cmdSpeed[(autoAt .phev).ramp.toNat]? = some ⟨0xC1, 0x10⟩) ∧
    ((cruisingAt .phev).phase = .cruisingForward ∧ (2#32).toInt < exCfg.params.distTarget.toInt ∧
      exCfg.params.distTarget.toInt ≤ (3#32).toInt ∧ exCfg.params.dwellTicks ≠ 0 ∧
      { exParams with dwellTicks := 0 }.dwellTicks = 0) ∧
    ((reversingAt .phev).phase = .reversing ∧ exCfg.distStart.toInt < (1#32).toInt ∧
      (0#32).toInt ≤ exCfg.distStart.toInt) := by decide
theorem witness_EmissionHandsOverOneCommand :
    (let s := autoAt .emit
     s.btcStep = 0 ∧ s.fault = 0 ∧ s.tpc = .emit ∧ s.otx.busy = false ∧ s.emitq = []) ∧
    (let s := { autoAt .emit with emitq := [⟨0xC1, 0x10⟩] }
     s.tpc = .emit ∧ s.otx.busy = false ∧ s.emitq = ⟨0xC1, 0x10⟩ :: []) ∧
    (let s := { autoAt .emit with otx := ⟨0, 0, true⟩ }; s.tpc = .emit ∧ s.otx.busy = true) := by decide

theorem inv_booted : MachineInv booted :=
  ⟨by decide, ⟨.inl rfl, by decide, by decide⟩, ⟨by decide, by decide, by decide⟩,
   ⟨by unfold sampleRange; decide, by unfold sampleRange; decide, by unfold sampleRange; decide,
    by decide, by decide, by decide⟩,
   ⟨by decide, by decide, by decide, by decide, by decide, by decide, by decide, by decide⟩,
   ⟨by decide, by decide, by decide, by decide⟩⟩
/-- The invariant of a state at rest but for a few fields. -/
theorem inv_of (s : State) (hs : s.cfg = exCfg ∧ s.fault = 0 ∧ s.btcStep = 0 ∧ s.ulist = [] ∧ s.btcXyz = false ∧
      s.sx = 0 ∧ s.sy = 0 ∧ s.sz = 0 ∧ s.sum = 0 ∧ s.scnt = 0)
    (tick : TickInv s) (course : CourseInv s) : MachineInv s := by
  obtain ⟨h1, h2, h3, h4, h5, h6, h7, h8, h9, h10⟩ := hs
  refine ⟨h1 ▸ by decide, ⟨.inl h2, fun _ => h3, fun h => absurd h2 h⟩, ⟨?_, ?_, fun _ => h5⟩, ⟨?_, ?_, ?_, ?_, ?_, ?_⟩,
    tick, course⟩
  · rw [h3]; exact Nat.zero_le _
  · simp [h3, h4]
  · rw [h6]; unfold sampleRange; decide
  · rw [h7]; unfold sampleRange; decide
  · rw [h8]; unfold sampleRange; decide
  · rw [h10]; exact Nat.zero_le _
  · rw [h9, h10]; decide
  · rw [h9, h10]; decide
def oneMore : State := { autoAt .phev with ramp := 1, out := [⟨0xC1, 0x10⟩] }
theorem inv_oneMore : MachineInv oneMore :=
  inv_of _ (by decide)
    ⟨by decide, by decide, by decide, by decide, by decide, by decide, by decide, by decide⟩
    ⟨by decide, by decide, by decide, by decide⟩
theorem inv_dwelling : MachineInv { cruisingAt .wait with dwell := 1, tickPend := true } :=
  inv_of _ (by decide)
    ⟨by decide, by decide, by decide, by decide, by decide, by decide, by decide, by decide⟩
    ⟨by decide, by decide, by decide, by decide⟩
theorem inv_returned : MachineInv (reversingAt .phev) :=
  inv_of _ (by decide)
    ⟨by decide, by decide, by decide, by decide, by decide, by decide, by decide, by decide⟩
    ⟨by decide, by decide, by decide, by decide⟩

/-- Each of the three moves is taken by a step from a state of the invariant. -/
theorem witness_PhaseOnlyMovesForward :
    (MachineInv oneMore ∧ oneMore.run = true ∧
      (∃ t, step oneMore = .next t ∧ t.phase = .cruisingForward) ∧ oneMore.nextEvent ≠ .rst) ∧
    (let s := { cruisingAt .wait with dwell := 1, tickPend := true }
     MachineInv s ∧ s.run = true ∧ (∃ t, step s = .next t ∧ t.phase = .reversing) ∧ s.nextEvent ≠ .rst) ∧
    (let s := reversingAt .phev
     MachineInv s ∧ s.run = true ∧ (∃ t, step s = .next t ∧ t.phase = .stopped) ∧ s.nextEvent ≠ .rst) :=
  ⟨⟨inv_oneMore, rfl, ⟨_, rfl, rfl⟩, by decide⟩, ⟨inv_dwelling, rfl, ⟨_, rfl, rfl⟩, by decide⟩,
   inv_returned, rfl, ⟨_, rfl, rfl⟩, by decide⟩
theorem witness_OtxOnlyClearsItsBusy :
    { auto with sched := [.otx], otx := ⟨0xC1, 0x10, true⟩ }.sched = .otx :: [] := rfl
theorem witness_AutoModeIsLeftOnlyByReset :
    auto.run = true ∧ (∃ t, step auto = .next t) ∧ auto.nextEvent ≠ .rst := ⟨rfl, ⟨_, rfl⟩, by decide⟩
theorem witness_StoppedIsTerminal :
    let s := { stopped with sched := [.tick] }
    s.idle = true ∧ s.run = true ∧ s.phase = .stopped ∧ (∃ t, step s = .next t) ∧ s.nextEvent ≠ .rst :=
  ⟨by decide, rfl, rfl, ⟨_, rfl⟩, by decide⟩
theorem witness_StepKeepsTheDecidedCommands :
    MachineInv oneMore ∧ OutInv oneMore ∧ ∃ t, step oneMore = .next t ∧ t.emitq = [⟨0xC1, 0x20⟩] :=
  ⟨inv_oneMore, by unfold OutInv; decide, _, rfl, rfl⟩
theorem witness_OutIsAPrefixOfTheCourseGrammar :
    MachineInv (reversingAt .phev) ∧ OutInv (reversingAt .phev) := ⟨inv_returned, by unfold OutInv; decide⟩
theorem witness_HostWriteStoresItsRegister :
    (booted.fault = 0 ∧ booted.run = false) ∧ frozen.fault ≠ 0 := by decide
/-- The ends of every range of refused offsets. -/
theorem witness_IllegalAccessRaisesHacc :
    booted.fault = 0 ∧ frozen.fault ≠ 0 ∧ (0x02 : BitVec 8).toNat % 4 ≠ 0 ∧ 0xBC < (0xC0 : BitVec 8).toNat ∧
    ∀ off ∈ [0x04#8, 0x14#8, 0x24#8, 0x3C#8, 0x80#8, 0xBC#8], off.toNat % 4 = 0 ∧
      ((4 ≤ off.toNat ∧ off.toNat ≤ 0x14) ∨ (0x24 ≤ off.toNat ∧ off.toNat ≤ 0x3C) ∨
        (0x80 ≤ off.toNat ∧ off.toNat ≤ 0xBC)) := by decide
theorem witness_HostWriteInAutoModeRaisesClfown :
    (auto.idle = true ∧ auto.fault = 0 ∧ auto.run = true) ∧
    (∀ off ∈ [0x18#8, 0x20#8, 0x40#8, 0x7C#8], off.toNat % 4 = 0 ∧
      ((0x18 ≤ off.toNat ∧ off.toNat ≤ 0x20) ∨ (0x40 ≤ off.toNat ∧ off.toNat ≤ 0x7C))) ∧
    ∀ off ∈ [0x04#8, 0x14#8, 0x24#8, 0x3C#8, 0x80#8, 0xBC#8], off.toNat % 4 = 0 ∧
      ((4 ≤ off.toNat ∧ off.toNat ≤ 0x14) ∨ (0x24 ≤ off.toNat ∧ off.toNat ≤ 0x3C) ∨
        (0x80 ≤ off.toNat ∧ off.toNat ≤ 0xBC)) := by decide
theorem witness_FaultFreezesTheBlock :
    let s := { frozen with hostq := [.read 0x08], sched := [.host] }
    FaultInv s ∧ s.fault ≠ 0 ∧ (∃ t, step s = .next t ∧ t.hrdata = 0x02) ∧ s.nextEvent ≠ .rst :=
  ⟨⟨.inr ⟨.badlen, rfl⟩, by decide, by decide⟩, by decide, ⟨_, rfl, rfl⟩, by decide⟩
theorem witness_ResetEventRestoresTheResetState :
    { stopped with sched := [.rst] }.sched = .rst :: [] := rfl

/-- A state of each of the six steps of the reference engine. -/
def engineStates : List State :=
  [{ booted with eng := { quietEng with stt := true } },
   { booted with eng := { quietEng with sa := 0x2B, stt := true } },
   { booted with mode := .txOpen, eng := { quietEng with busy := true } },
   { booted with mode := .txOpen, eng := { quietEng with busy := true, txrdy := true, stp := true } }] ++
  [{ booted with mode := .txOpen, eng := { quietEng with busy := true, txrdy := true, stt := true, tr := false } },
   { booted with mode := .rxOpen, eng := { quietEng with busy := true, tr := false } }]

theorem busInv_engineStates : ∀ s ∈ engineStates, BusInv s := by
  intro s hs
  simp only [engineStates, List.cons_append, List.nil_append, List.mem_cons, List.not_mem_nil, or_false] at hs
  rcases hs with rfl | rfl | rfl | rfl | rfl | rfl <;>
    exact ⟨rfl, by decide, by decide, by decide, by decide, by decide⟩
theorem witness_ReferenceEngineMeetsTheContract :
    ∀ s ∈ engineStates, BusInv s ∧ s.engineEnabled = true :=
  fun s hs => ⟨busInv_engineStates s hs, (by decide : ∀ s ∈ engineStates, s.engineEnabled = true) s hs⟩
/-- A read about to send its START, its `W_IDLE` passed. -/
def startingRead : State := { booted with ulist := readOneList 0x40, btcStep := 2, sched := [.sbmc] }
theorem witness_StepKeepsBusyWithTheOpenTransaction :
    BusInv startingRead ∧ (∃ t, step startingRead = .next t ∧ t.eng.stt = true) ∧
    ∀ e w, startingRead.nextEvent ≠ .engineSets e w :=
  ⟨⟨rfl, by decide, by decide, by decide, by decide, by decide⟩, ⟨_, rfl, rfl⟩, fun _ _ h => by cases h⟩
/-- Each step of the reference engine, both forms of E-TX, E-RX and E-STARTW. -/
theorem witness_TransmittedByteGoesToTheAddressedRegister :
    (∀ f, let s := { booted with
          mode := .txOpen, eng := { quietEng with busy := true, txbuf := 0x5A }, slv := ⟨0xFF, f, [(0x10, 0x01)]⟩ }
      s.slv.sreg.wf = true ∧ s.mode = .txOpen ∧ s.eng.txrdy = false ∧ s.slv.first = f) ∧
    (∀ p, let s := { booted with mode := .rxOpen, eng := { quietEng with busy := true, tr := false, stp := p } }
      s.mode = .rxOpen ∧ s.eng.rxrdy = false ∧ s.eng.stp = p) ∧
    (let s := { booted with eng := { quietEng with stt := true } }
     s.mode = .idle ∧ s.eng.stt = true ∧ s.eng.tr = true ∧ s.eng.sa = s.cfg.slvAddr ∧ 0x2B ≠ s.cfg.slvAddr) ∧
    (let s := { booted with mode := .txOpen, eng := { quietEng with busy := true, txrdy := true, stt := true, tr := false } }
     s.mode = .txOpen ∧ s.eng.txrdy = true ∧ s.eng.stt = true ∧ s.eng.tr = false) ∧
    (let s := { booted with mode := .txOpen, eng := { quietEng with busy := true, txrdy := true, stp := true } }
     s.mode = .txOpen ∧ s.eng.txrdy = true ∧ s.eng.stp = true ∧ s.eng.stt = false) := by decide
/-- OTX's event, and the unconstrained engine's. -/
theorem witness_SlaveChangesOnlyByEngineAndEnvironment :
    ∀ ev ∈ [Event.otx, .engineSets quietEng [.dw 0x5A]], let s := { booted with sched := [ev] }
      (∃ t, step s = .next t) ∧ s.nextEvent ≠ .engine ∧ ∀ a v, s.nextEvent ≠ .slaveSets a v := by
  intro ev h
  simp only [List.mem_cons, List.not_mem_nil, or_false] at h
  rcases h with rfl | rfl <;> exact ⟨⟨_, rfl⟩, by decide, fun _ _ h => by cases h⟩
theorem witness_StepKeepsTheInvariant : MachineInv booted ∧ ∃ t, step booted = .next t := ⟨inv_booted, _, rfl⟩
theorem witness_ResetMeetsTheInvariants : exCfg.wellFormed = true := by decide
theorem witness_InvariantStatesNeverStop : MachineInv (reversingAt .phev) := inv_returned
theorem witness_StepKeepsTheMemoryCanonical :
    let s := { booted with sched := [.slaveSets 0xFF 0x2A] }
    s.slv.sreg.wf = true ∧ ∃ t, step s = .next t ∧ t.slv.sreg = [(0x10, 0x01), (0xFF, 0x2A)] :=
  ⟨by decide, _, rfl, by decide⟩

end Sys2Proof.Tests
end

section
/-! Proofs about the host port's register map (spec/10_state.md R20, R45). -/

namespace Sys2Proof.Machine

/-! ### The register map: which register an offset selects (R20) -/

/-- R20's map by the table's index: below 48 the offset does not wrap in 8 bits, so the legality test and the division
see it as it is. -/
theorem hostReg_four_mul {i : Nat} (hi : i < 48) : hostReg (BitVec.ofNat 8 (4 * i)) = some (hostRegAt i) := by
  have hoff : (BitVec.ofNat 8 (4 * i)).toNat = 4 * i := by
    rw [BitVec.toNat_ofNat, Nat.mod_eq_of_lt (by omega)]
  have hlegal : ¬ (4 * i % 4 ≠ 0 ∨ 0xBC < 4 * i) := by omega
  rw [hostReg, hoff, if_neg hlegal, Nat.mul_div_cancel_left i (by decide)]

theorem hostRegAt_txb : ∀ k : Fin 16, hostRegAt (16 + k) = .txb k := by decide

theorem hostRegAt_rxb : ∀ k : Fin 16, hostRegAt (32 + k) = .rxb k := by decide

theorem hostReg_txb (k : Fin 16) : hostReg (BitVec.ofNat 8 (0x40 + 4 * k)) = some (.txb k) := by
  have hi : 16 + k.val < 48 := by omega
  rw [← hostRegAt_txb k, ← hostReg_four_mul hi, Nat.mul_add]

theorem hostReg_rxb (k : Fin 16) : hostReg (BitVec.ofNat 8 (0x80 + 4 * k)) = some (.rxb k) := by
  have hi : 32 + k.val < 48 := by omega
  rw [← hostRegAt_rxb k, ← hostReg_four_mul hi, Nat.mul_add]

/-! ### HostRead (R45) -/

/-- R45's frame: where an offset selects a register, the read's value is all that changes. -/
theorem hostRead_of_hostReg {off : BitVec 8} {r : HostReg} (h : hostReg off = some r) (s : State) :
    hostRead off s = { s with hrdata := readReg s r } := by
  rw [hostRead, h]

/-- The read at the `i`-th offset of R20's table. -/
theorem hostRead_four_mul {i : Nat} (hi : i < 48) (s : State) :
    hostRead (BitVec.ofNat 8 (4 * i)) s = { s with hrdata := readReg s (hostRegAt i) } :=
  hostRead_of_hostReg (hostReg_four_mul hi) s

/-- Settles O46: the map gives the register at each offset, by its index for the sixteen single registers and for
every `k` in the two byte files, and `hostRead_of_hostReg` gives the read's value and frame. -/
theorem hostReadReturnsTheRegister : Obligations.HostReadReturnsTheRegister := by
  intro s
  have single (i : Fin 16) := hostRead_four_mul (i := i) (by omega) s
  exact ⟨single 0, single 1, single 2, single 3, single 4, single 5, single 6, single 7, single 8, single 9,
    single 10, single 11, single 12, single 13, single 14, single 15,
    fun k => ⟨hostRead_of_hostReg (hostReg_txb k) s, hostRead_of_hostReg (hostReg_rxb k) s⟩⟩

end Sys2Proof.Machine
end

section
/-! Proofs about the command word: encoder and decoder are inverse (spec/30_encoding.md R110, R114, R119), and the words a
row of the opcode map selects are its command's encodings (R113). -/

namespace Sys2Proof

/-! ### A word and its fields (R110) -/

/-- A word with the given fields is the command word of these fields. -/
theorem commandWord_of_fields {w : Word} {opc a b c : Byte} (ho : opcField w = opc) (ha : aField w = a)
    (hb : bField w = b) (hc : cField w = c) : commandWord opc a b c = w := by
  subst ho ha hb hc
  exact commandWord_fields w

theorem opcField_and (w m : Word) : opcField (w &&& m) = opcField w &&& opcField m := BitVec.extractLsb'_and

theorem aField_and (w m : Word) : aField (w &&& m) = aField w &&& aField m := BitVec.extractLsb'_and

theorem bField_and (w m : Word) : bField (w &&& m) = bField w &&& bField m := BitVec.extractLsb'_and

theorem cField_and (w m : Word) : cField (w &&& m) = cField w &&& cField m := BitVec.extractLsb'_and

/-- The 7-bit address of a field whose bit 7 is zero is the whole field (R114, SETSA). -/
theorem setWidth_address_of_bit7 :
    ∀ a : Byte, a.getLsbD 7 = false → (a.extractLsb' 0 7).setWidth 8 = a := by decide

/-- The decoder's test of bit 7, as a mask (R113, SETSA). -/
theorem bit7_of_and : ∀ a : Byte, a &&& 0x80 = 0 → a.getLsbD 7 = false := by decide

theorem address_setWidth : ∀ addr : BusAddr, (addr.setWidth 8).extractLsb' 0 7 = addr := by decide

/-! ### Encoder and decoder (R112 step 3, R119) -/

theorem reservedZero_eq_ok {zero : Bool} {i j : Instr} :
    reservedZero zero i = .ok j ↔ zero = true ∧ i = j := by
  cases zero <;> simp [reservedZero]

/-- Every command is decoded from its encoding. -/
theorem decode_encode (i : Instr) : decode (encode i) = .ok i := by
  cases i with
  | setsa addr =>
    simp [encode, decode, reservedZero_eq_ok, address_setWidth]
  | _ => simp [encode, decode, reservedZero_eq_ok]

/-- No bit of an accepted word is lost: the reserved fields are zero and the others are operands. -/
theorem encode_of_decode {w : Word} {i : Instr} (h : decode w = .ok i) : encode i = w := by
  unfold decode at h
  split at h
  case h_2 hopc =>
    obtain ⟨hres, rfl⟩ := reservedZero_eq_ok.mp h
    simp only [Bool.and_eq_true, beq_iff_eq, Bool.not_eq_true'] at hres
    obtain ⟨h7, hb, hc⟩ := hres
    exact commandWord_of_fields (BitVec.eq_of_toNat_eq hopc) (setWidth_address_of_bit7 _ h7).symm hb hc
  case h_16 => cases h
  all_goals
    next hopc =>
    obtain ⟨hres, rfl⟩ := reservedZero_eq_ok.mp h
    simp only [Bool.and_eq_true, beq_iff_eq] at hres
    exact commandWord_of_fields (BitVec.eq_of_toNat_eq hopc) (by simp [hres]) (by simp [hres]) (by simp [hres])

/-! ### The rows of the opcode map (R113) -/

/-- A row is selected field by field. -/
theorem fields_of_selects {r : OpcodeRow} {w : Word} (h : r.selects w = true) :
    opcField w &&& opcField r.mask = opcField r.value ∧ aField w &&& aField r.mask = aField r.value ∧
    bField w &&& bField r.mask = bField r.value ∧ cField w &&& cField r.mask = cField r.value := by
  have hw : w &&& r.mask = r.value := beq_iff_eq.mp h
  rw [← hw]
  exact ⟨(opcField_and ..).symm, (aField_and ..).symm, (bField_and ..).symm, (cField_and ..).symm⟩

/-- Where the mask of a field is full, the row fixes the field. -/
theorem field_eq_of_full_mask {x m v : Byte} (h : x &&& m = v) (hm : m = 0xFF) : x = v := by
  subst hm
  exact BitVec.and_allOnes.symm.trans h

theorem opcField_mask : ∀ r ∈ opcodeRows, opcField r.mask = 0xFF := by decide

theorem opcField_value_injective :
    ∀ r ∈ opcodeRows, ∀ r' ∈ opcodeRows, opcField r.value = opcField r'.value → r = r' := by decide

/-- A word selects only rows of its own opcode. -/
theorem opcField_of_selects {r : OpcodeRow} {w : Word} (hr : r ∈ opcodeRows) (h : r.selects w = true) :
    opcField w = opcField r.value := by
  obtain ⟨ho, -, -, -⟩ := fields_of_selects h
  exact field_eq_of_full_mask ho (opcField_mask r hr)

/-- A word selects at most one row. -/
theorem selects_unique {w : Word} {r r' : OpcodeRow} (hr : r ∈ opcodeRows) (hr' : r' ∈ opcodeRows)
    (h : r.selects w = true) (h' : r'.selects w = true) : r = r' :=
  opcField_value_injective r hr r' hr' ((opcField_of_selects hr h).symm.trans (opcField_of_selects hr' h'))

/-- `fields_of_selects` for a value that is an opcode and three zero fields, as every row's is. -/
theorem fields_of_selects_opcode {n : String} {opc : Byte} {m w : Word}
    (h : (OpcodeRow.mk n (commandWord opc 0 0 0) m).selects w = true) :
    opcField w &&& opcField m = opc ∧ aField w &&& aField m = 0 ∧ bField w &&& bField m = 0 ∧
    cField w &&& cField m = 0 := by
  simpa using fields_of_selects h

section Formats
variable {n : String} {v w : Word} {opc : Byte}

/-- A row of format Z fixes the whole word. -/
theorem eq_of_selects_formatZ (hv : commandWord opc 0 0 0 = v) (h : (OpcodeRow.mk n v 0xFFFFFFFF).selects w = true) :
    commandWord opc 0 0 0 = w :=
  hv.trans ((beq_iff_eq.mp h).symm.trans BitVec.and_allOnes)

/-- A row of format A leaves field `A` free. -/
theorem eq_of_selects_formatA (hv : commandWord opc 0 0 0 = v) (h : (OpcodeRow.mk n v 0xFF00FFFF).selects w = true) :
    commandWord opc (aField w) 0 0 = w := by
  subst hv
  obtain ⟨ho, -, hb, hc⟩ := fields_of_selects_opcode h
  exact commandWord_of_fields (field_eq_of_full_mask ho (by decide)) rfl (field_eq_of_full_mask hb (by decide))
    (field_eq_of_full_mask hc (by decide))

/-- A row of format AB leaves fields `A` and `B` free. -/
theorem eq_of_selects_formatAB (hv : commandWord opc 0 0 0 = v) (h : (OpcodeRow.mk n v 0xFF0000FF).selects w = true) :
    commandWord opc (aField w) (bField w) 0 = w := by
  subst hv
  obtain ⟨ho, -, -, hc⟩ := fields_of_selects_opcode h
  exact commandWord_of_fields (field_eq_of_full_mask ho (by decide)) rfl rfl (field_eq_of_full_mask hc (by decide))

/-- A row of format S leaves the low seven bits of field `A` free. -/
theorem eq_of_selects_formatS (hv : commandWord opc 0 0 0 = v) (h : (OpcodeRow.mk n v 0xFF80FFFF).selects w = true) :
    commandWord opc (((aField w).extractLsb' 0 7).setWidth 8) 0 0 = w := by
  subst hv
  obtain ⟨ho, ha, hb, hc⟩ := fields_of_selects_opcode h
  rw [show aField 0xFF80FFFF = 0x80 by decide] at ha
  rw [setWidth_address_of_bit7 _ (bit7_of_and _ ha)]
  exact commandWord_of_fields (field_eq_of_full_mask ho (by decide)) rfl (field_eq_of_full_mask hb (by decide))
    (field_eq_of_full_mask hc (by decide))

end Formats

/-- A word that selects a row is the encoding of a command, by the row's format. -/
theorem exists_encode_of_selects {r : OpcodeRow} {w : Word} (hr : r ∈ opcodeRows) (h : r.selects w = true) :
    ∃ i, encode i = w := by
  simp only [opcodeRows, List.cons_append, List.nil_append, List.mem_cons, List.not_mem_nil, or_false] at hr
  rcases hr with rfl | rfl | rfl | rfl | rfl | rfl | rfl | rfl | rfl | rfl | rfl | rfl | rfl | rfl | rfl
  · exact ⟨.initm, eq_of_selects_formatZ (by decide) h⟩
  · exact ⟨.setsa _, eq_of_selects_formatS (by decide) h⟩
  · exact ⟨.wrb _, eq_of_selects_formatA (by decide) h⟩
  · exact ⟨.wrbs _, eq_of_selects_formatA (by decide) h⟩
  · exact ⟨.wrr _ _, eq_of_selects_formatAB (by decide) h⟩
  · exact ⟨.rdr _, eq_of_selects_formatA (by decide) h⟩
  · exact ⟨.rdrs _ _, eq_of_selects_formatAB (by decide) h⟩
  · exact ⟨.rdxyz, eq_of_selects_formatZ (by decide) h⟩
  · exact ⟨.dec12 _ _, eq_of_selects_formatAB (by decide) h⟩
  · exact ⟨.sclr, eq_of_selects_formatZ (by decide) h⟩
  · exact ⟨.sacc, eq_of_selects_formatZ (by decide) h⟩
  · exact ⟨.savg, eq_of_selects_formatZ (by decide) h⟩
  · exact ⟨.updv, eq_of_selects_formatZ (by decide) h⟩
  · exact ⟨.updd, eq_of_selects_formatZ (by decide) h⟩
  · exact ⟨.run, eq_of_selects_formatZ (by decide) h⟩

/-- The encoding of every command selects the row with its mnemonic. -/
theorem encode_selects : ∀ i : Instr, Laws.EncodesRow.Statement i
  | .initm => Laws.EncodesRow.initm
  | .setsa addr => Laws.EncodesRow.setsa addr
  | .wrb data => Laws.EncodesRow.wrb data
  | .wrbs length => Laws.EncodesRow.wrbs length
  | .wrr reg data => Laws.EncodesRow.wrr reg data
  | .rdr reg => Laws.EncodesRow.rdr reg
  | .rdrs firstAddr count => Laws.EncodesRow.rdrs firstAddr count
  | .rdxyz => Laws.EncodesRow.rdxyz
  | .dec12 low high => Laws.EncodesRow.dec12 low high
  | .sclr => Laws.EncodesRow.sclr
  | .sacc => Laws.EncodesRow.sacc
  | .savg => Laws.EncodesRow.savg
  | .updv => Laws.EncodesRow.updv
  | .updd => Laws.EncodesRow.updd
  | .run => Laws.EncodesRow.run

/-- Settles O2: an accepted word is its command's encoding, which selects the command's row; a word that selects a row
is an encoding, which the decoder accepts. -/
theorem decodeFollowsTheOpcodeMap : Obligations.DecodeFollowsTheOpcodeMap := by
  refine ⟨rfl, fun _ _ _ => selects_unique, fun w => ?_⟩
  cases hw : decode w with
  | ok i =>
    have henc := encode_of_decode hw
    exact ⟨henc, henc ▸ encode_selects i⟩
  | error e =>
    intro r hr
    by_contra hsel
    obtain ⟨i, rfl⟩ := exists_encode_of_selects hr (Bool.eq_true_of_not_eq_false hsel)
    rw [decode_encode] at hw
    cases hw

end Sys2Proof
end

section
/-! Proofs about the transaction commands of the BTC (spec/40_btc_commands.md): what an accepted command loads (R142), and
the commands that load the same list (R168). -/

namespace Sys2Proof.Machine

/-! ### The checks of an accepted transaction command (R159, R283) -/

theorem transaction_ready {s : State} (hi : s.initDone = true) (hv : s.saValid = true) (cw : Word)
    (body : State → State) : transaction cw body s = body s := by
  simp [transaction, hi, hv]

theorem checkLength_legal {n : Byte} {depth : Nat} (h1 : 1 ≤ n.toNat) (hd : n.toNat ≤ depth) (cw : Word)
    (body : State → State) (s : State) : checkLength n depth cw body s = body s := by
  rw [checkLength, if_neg (by omega)]

theorem accept_transaction {s : State} (h : s.acceptingTransaction) (cw : Word) (body : State → State) :
    accept cw (transaction cw body) s = body s := by
  obtain ⟨hacc, hi, hv⟩ := h
  rw [accept_accepting hacc, transaction_ready hi hv]

theorem accept_checkLength_transaction {s : State} (h : s.acceptingTransaction) {n : Byte} {depth : Nat}
    (h1 : 1 ≤ n.toNat) (hd : n.toNat ≤ depth) (cw : Word) (body : State → State) :
    accept cw (checkLength n depth cw (transaction cw body)) s = body s := by
  obtain ⟨hacc, hi, hv⟩ := h
  rw [accept_accepting hacc, checkLength_legal h1 hd, transaction_ready hi hv]

/-! ### The list each accepted command loads (R142) -/

section Accepted
variable {s : State} (h : s.acceptingTransaction)
include h

theorem exec_wrb_accepted (d : Byte) : exec (.wrb d) s = .next (loadList (writeList [d]) s) :=
  congrArg _ (accept_transaction h _ _)

theorem exec_wrr_accepted (r d : Byte) : exec (.wrr r d) s = .next (loadList (writeList [r, d]) s) :=
  congrArg _ (accept_transaction h _ _)

theorem exec_rdr_accepted (r : Byte) : exec (.rdr r) s = .next (loadList (readOneList r) s) :=
  congrArg _ (accept_transaction h _ _)

theorem exec_wrbs_accepted {n : Byte} (h1 : 1 ≤ n.toNat) (hd : n.toNat ≤ s.cfg.txbDepth) :
    exec (.wrbs n) s = .next (loadList (writeList (txBytes s.txb n.toNat)) s) :=
  congrArg _ (accept_checkLength_transaction h h1 hd _ _)

theorem exec_rdrs_accepted (f : Byte) {c : Byte} (h1 : 1 ≤ c.toNat) (hd : c.toNat ≤ s.cfg.rxbDepth) :
    exec (.rdrs f c) s = .next (loadList (readList f c.toNat) s) :=
  congrArg _ (accept_checkLength_transaction h h1 hd _ _)

end Accepted

/-! ### The lists of one byte and of two (R168) -/

theorem txBytes_one (txb : Vector Byte bufferSize) : txBytes txb 1 = [txb[0]] := rfl

theorem txBytes_two (txb : Vector Byte bufferSize) : txBytes txb 2 = [txb[1], txb[0]] := rfl

theorem readList_one (f : Byte) : readList f 1 = readOneList f := rfl

/-- Both buffers of a well-formed build hold at least one byte (R6). -/
theorem one_le_depths {c : Config} (h : c.wellFormed = true) : 1 ≤ c.txbDepth ∧ 1 ≤ c.rxbDepth := by
  simp only [Config.wellFormed, Bool.and_eq_true, decide_eq_true_eq] at h
  omega

/-- Settles O14: each pair of commands passes its checks and loads the same list. -/
theorem commandsOfOneListAreEqual : Obligations.CommandsOfOneListAreEqual := by
  intro s hwf hs
  obtain ⟨htx, hrx⟩ := one_le_depths hwf
  refine ⟨?wrb, ?wrr, ?rdr⟩
  case wrb =>
    rintro d rfl
    rw [exec_wrb_accepted hs, exec_wrbs_accepted hs (n := 1) (by decide) htx, show (1 : Byte).toNat = 1 from rfl,
      txBytes_one]
  case wrr =>
    rintro h2 r d rfl rfl
    rw [exec_wrr_accepted hs, exec_wrbs_accepted hs (n := 2) (by decide) h2, show (2 : Byte).toNat = 2 from rfl,
      txBytes_two]
  case rdr =>
    intro r
    rw [exec_rdr_accepted hs, exec_rdrs_accepted hs r (c := 1) (by decide) hrx, show (1 : Byte).toNat = 1 from rfl,
      readList_one]

end Sys2Proof.Machine
end

section
/-! Proofs about the Motion Integrator Unit (spec/42_miu.md): the truncated quotient (spec/00_scope.md R9), its linearity up
to truncation (R227), and when the integrator's step is at rest (R226). -/

namespace Sys2Proof.Machine

/-! ### Division that truncates toward zero (R9) -/

/-- The truncation is symmetric about zero. -/
theorem tdiv_neg (a : Int) (b : Nat) : tdiv (-a) b = -tdiv a b := by
  rw [tdiv, tdiv, Int.sign_neg, Int.natAbs_neg, Int.neg_mul]

theorem tdiv_eq_zero_iff {b : Nat} (hb : 1 ≤ b) (a : Int) : tdiv a b = 0 ↔ a.natAbs < b := by
  have hzero : a = 0 → a.natAbs < b := by omega
  rw [tdiv, mul_eq_zero, Int.sign_eq_zero_iff_zero, Int.natCast_eq_zero, Nat.div_eq_zero_iff_lt hb]
  exact or_iff_right_of_imp hzero

/-- Doubling the dividend doubles the quotient, plus a carry of at most 1 from the remainder. -/
theorem two_mul_div_bounds {b : Nat} (hb : 1 ≤ b) (n : Nat) :
    2 * (n / b) ≤ 2 * n / b ∧ 2 * n / b < 2 * (n / b) + 2 := by
  refine ⟨Nat.mul_div_le_mul_div_assoc 2 n b, Nat.div_lt_of_lt_mul ?_⟩
  calc 2 * n < 2 * (b * (n / b + 1)) := Nat.mul_lt_mul_of_pos_left (Nat.lt_mul_div_succ n hb) (by decide)
    _ = b * (2 * (n / b) + 2) := Nat.mul_left_comm ..

theorem tdiv_two_mul_le_one {b : Nat} (hb : 1 ≤ b) (a : Int) : (tdiv (2 * a) b - 2 * tdiv a b).natAbs ≤ 1 := by
  have hsign : (2 * a).sign = a.sign := by rw [Int.sign_mul]; exact Int.one_mul _
  have hfactor : tdiv (2 * a) b - 2 * tdiv a b = a.sign * ((2 * a.natAbs / b : Nat) - 2 * (a.natAbs / b : Nat)) := by
    rw [tdiv, tdiv, hsign, Int.natAbs_mul, Int.mul_left_comm 2, ← Int.mul_sub]
    rfl
  rw [hfactor, Int.natAbs_mul]
  refine mul_le_one' ?sign ?carry
  case sign => rw [Int.natAbs_sign]; split <;> omega
  case carry => have := two_mul_div_bounds hb a.natAbs; omega

/-- A well-formed build divides by at least 1 (R6). -/
theorem one_le_scale {c : Config} (h : c.wellFormed = true) : 1 ≤ c.scale := by
  simp only [Config.wellFormed, Bool.and_eq_true, decide_eq_true_eq] at h
  omega

/-- Settles O32: with `x = a * DT`, the doubling and the negation of `a` are those of `x`. -/
theorem integratorIsLinearUpToTruncation : Obligations.IntegratorIsLinearUpToTruncation := by
  intro c a hwf
  rw [Int.mul_assoc, Int.neg_mul]
  exact ⟨tdiv_two_mul_le_one (one_le_scale hwf) _, tdiv_neg _ _⟩

/-! ### Words and their integers (R9) -/

theorem fits32_iff (v : Int) : fits32 v = true ↔ -2 ^ 31 ≤ v ∧ v ≤ 2 ^ 31 - 1 := by
  simp only [fits32, Bool.and_eq_true, decide_eq_true_eq]

theorem fits32_toInt (w : Word) : fits32 w.toInt = true := by
  have hlo := w.le_toInt
  have hhi := w.toInt_lt
  rw [fits32_iff]
  omega

theorem toInt_ofInt_of_fits32 {v : Int} (h : fits32 v = true) : (BitVec.ofInt 32 v).toInt = v := by
  obtain ⟨hlo, hhi⟩ := (fits32_iff v).mp h
  exact BitVec.toInt_ofInt_eq_self (by decide) hlo (by omega)

/-! ### The integrator's step at rest (R223, R226) -/

/-- The step keeps the previous value exactly when the increment is truncated to zero. -/
theorem integrate_eq_prev_iff {c : Config} (hwf : c.wellFormed = true) (rate prev : Word) :
    integrate c rate prev = prev.toInt ↔ (rate.toInt * (c.dt : Int)).natAbs < c.scale := by
  rw [integrate, add_eq_left, tdiv_eq_zero_iff (one_le_scale hwf)]

theorem integrate_zero {c : Config} (hwf : c.wellFormed = true) (prev : Word) : integrate c 0 prev = prev.toInt := by
  rw [integrate_eq_prev_iff hwf, show (0 : Word).toInt = 0 from rfl, Int.zero_mul]
  exact one_le_scale hwf

/-! ### UPDV and UPDD at acceptance (R221, R222) -/

/-- A fault raised where there was none shows in FAULT. -/
theorem raise_ne_self {s : State} (hf : s.fault = 0) (c : FaultCode) (info : Word) : raise c info s ≠ s := by
  intro h
  have hbit : c.bit = 0 := by simpa [hf] using congrArg State.fault h
  cases c <;> exact absurd hbit (by decide)

theorem exec_updv_accepted {s : State} (h : s.accepting) : exec .updv s = .next (updateVelocity s) :=
  congrArg _ (accept_accepting h _ _)

theorem exec_updd_accepted {s : State} (h : s.accepting) : exec .updd s = .next (updateDistance s) :=
  congrArg _ (accept_accepting h _ _)

theorem updateVelocity_eq_self {s : State} (h : integrate s.cfg s.acc s.vel = s.vel.toInt) :
    updateVelocity s = s := by
  rw [updateVelocity, h, if_pos (fits32_toInt _), BitVec.ofInt_toInt]

/-- UPDD changes nothing exactly where the exact result is DIST: a result that does not fit raises a fault, and one that
fits is read back from DIST. -/
theorem updateDistance_eq_self_iff {s : State} (hf : s.fault = 0) :
    updateDistance s = s ↔ integrate s.cfg s.vel s.dist = s.dist.toInt := by
  constructor
  · intro hself
    rcases updateDistance_cases s with ⟨hfits, hupd⟩ | ⟨-, hupd⟩
    · have hdist : BitVec.ofInt 32 (integrate s.cfg s.vel s.dist) = s.dist :=
        congrArg State.dist (hupd.symm.trans hself)
      rw [← toInt_ofInt_of_fits32 hfits, hdist]
    · exact absurd (hupd.symm.trans hself) (raise_ne_self hf _ _)
  · intro h
    rw [updateDistance, h, if_pos (fits32_toInt _), BitVec.ofInt_toInt]

theorem exec_updd_eq_self_iff {s : State} (hwf : s.cfg.wellFormed = true) (h : s.accepting) :
    exec .updd s = .next s ↔ (s.vel.toInt * (s.cfg.dt : Int)).natAbs < s.cfg.scale := by
  have ⟨_, hf, _⟩ := h
  rw [exec_updd_accepted h, Host.Outcome.next.injEq, updateDistance_eq_self_iff hf, integrate_eq_prev_iff hwf]

/-- Settles O31: at acceptance each command is its operation, which changes nothing where the integrator's step keeps the
previous value; a rate of zero is such a step. -/
theorem integratorIsIdempotentAtRest : Obligations.IntegratorIsIdempotentAtRest := by
  intro s hwf hacc
  refine ⟨?updv, exec_updd_eq_self_iff hwf hacc, ?updd⟩
  case updv =>
    intro hzero
    rw [exec_updv_accepted hacc, updateVelocity_eq_self (hzero ▸ integrate_zero hwf s.vel)]
  case updd =>
    intro hzero
    rw [exec_updd_eq_self_iff hwf hacc, ← integrate_eq_prev_iff hwf _ s.dist, hzero, integrate_zero hwf]

end Sys2Proof.Machine
end

section
/-! Proofs about the control-loop FSM (spec/43_clf.md): T_START (R244), the phase evaluation (R248 to R253) and the emission
of drive commands (R255). -/

namespace Sys2Proof.Machine

/-! ### The sequencer with no command in progress -/

theorem idle_iff (s : State) : s.idle = true ↔ s.btcStep = 0 ∧ s.tpc = .wait := by
  simp [State.idle]

/-- With no command in progress and no fault, the sequencer takes the tick program's row. -/
theorem sbmcStep_of_ready {s : State} (hb : s.btcStep = 0) (hf : s.fault = 0) : sbmcStep s = tickRow s := by
  rw [sbmcStep, if_neg (not_not.mpr hb), if_neg (not_not.mpr hf)]

/-! ### T_START (R244) -/

theorem tickStartEnabled_iff (s : State) :
    s.tickStartEnabled = true ↔
      s.run = true ∧ s.fault = 0 ∧ s.phase ≠ .stopped ∧ s.tickPend = true ∧ s.idle = true := by
  simp [State.tickStartEnabled, and_assoc]

/-- In SBMC_IDLE the sequencer's step is T_START where it is enabled, and nothing otherwise. -/
theorem sbmcStep_idle {s : State} (hi : s.idle = true) :
    sbmcStep s = .next (if s.tickStartEnabled then tickStart s else s) := by
  obtain ⟨hb, hw⟩ := (idle_iff s).mp hi
  rcases sbmcStep_cases s with ⟨hb', -⟩ | ⟨-, hf, hs⟩ | ⟨-, -, hs⟩
  · exact absurd hb hb'
  · have hoff : ¬ s.tickStartEnabled = true := by
      rw [tickStartEnabled_iff]
      exact fun ⟨_, h0, _⟩ => hf h0
    rw [hs, if_neg hoff]
  · rw [hs, tickRow, hw]

theorem tickStart_of_no_dwell {s : State} (h : s.dwell = 0) :
    tickStart s = { s with tickPend := false, tpc := .sclr } :=
  if_pos h

/-- A dwell tick after which DWELL is not 0 yet. -/
theorem tickStart_of_dwell {s : State} (h0 : s.dwell ≠ 0) (h1 : s.dwell ≠ 1) :
    tickStart s = { s with tickPend := false, dwell := s.dwell - 1, tpc := .emit } := by
  have hleft : s.dwell - 1 ≠ 0 := fun h => h1 (sub_eq_zero.mp h)
  simp only [tickStart, if_neg h0, if_neg hleft]

/-- The dwell tick that ends the dwell (R251). -/
theorem tickStart_of_last_dwell {s : State} (h : s.dwell = 1) :
    tickStart s = { dwellEnd { s with tickPend := false, dwell := 0 } with tpc := .emit } := by
  rw [tickStart, h]
  rfl

/-- Settles O35: T_START is `tickStart` where its condition holds, by the value of DWELL, and each missing condition
disables it. -/
theorem tickStartTakesThePendingTick : Obligations.TickStartTakesThePendingTick := by
  intro s hi
  rw [sbmcStep_idle hi]
  refine ⟨fun hr hf hp ht => ?enabled, fun hd => ?disabled⟩
  case enabled =>
    rw [if_pos ((tickStartEnabled_iff s).mpr ⟨hr, hf, hp, ht, hi⟩)]
    exact ⟨fun h0 => congrArg _ (tickStart_of_no_dwell h0), fun h0 h1 => congrArg _ (tickStart_of_dwell h0 h1),
      fun h1 => congrArg _ (tickStart_of_last_dwell h1)⟩
  case disabled =>
    refine congrArg _ (if_neg fun he => ?_)
    obtain ⟨hr, hf, hp, ht, -⟩ := (tickStartEnabled_iff s).mp he
    simp [hr, hf, hp, ht] at hd

/-! ### The phase evaluation (R248 to R253) -/

/-- T_PHEV goes to T_EMIT with what the phase evaluation changed. -/
theorem sbmcStep_phev {s t : State} (hb : s.btcStep = 0) (hf : s.fault = 0) (hw : s.tpc = .phev)
    (h : phev s = .next t) : sbmcStep s = .next { t with tpc := .emit } := by
  rw [sbmcStep_of_ready hb hf, tickRow, hw]
  simp only [h]

theorem phev_cruising {s : State} (h : s.phase = .cruisingForward) : phev s = .next (phevCruising s) := by
  rw [phev, h]

theorem phev_reversing {s : State} (h : s.phase = .reversing) : phev s = .next (phevReversing s) := by
  rw [phev, h]

/-- R249 with RAMP counted as a natural number: below 255 the count does not wrap. -/
theorem phev_accelerating {s : State} {c : DriveCommand} (hp : s.phase = .accelerating) (hr : s.ramp ≠ 255)
    (hc : s.cfg.params.cmdSpeed[s.ramp.toNat]? = some c) :
    phev s = .next { s with
      ramp := s.ramp + 1
      emitq := [c]
      phase := if s.ramp.toNat + 1 = s.cfg.nRamp then .cruisingForward else .accelerating } := by
  have hcount : (s.ramp + 1).toNat = s.ramp.toNat + 1 := by bv_omega
  have hspeed : speedCommand s.cfg (s.ramp.toNat + 1) = some c := hc
  rw [phev, hp]
  simp only [phevAccelerating, hcount, hspeed, hp]

theorem phevCruising_before_target {s : State} (h : s.dist.toInt < s.cfg.params.distTarget.toInt) :
    phevCruising s = s :=
  if_neg (Int.not_le.mpr h)

theorem phevCruising_at_target {s : State} (h : s.cfg.params.distTarget.toInt ≤ s.dist.toInt)
    (hd : s.cfg.params.dwellTicks ≠ 0) :
    phevCruising s = { s with emitq := [s.cfg.params.cmdStop], dwell := s.cfg.params.dwellTicks } := by
  rw [phevCruising, if_pos h, if_neg hd]

/-- Without a dwell the dwell ends at once (R250). -/
theorem phevCruising_at_target_of_no_dwell {s : State} (h : s.cfg.params.distTarget.toInt ≤ s.dist.toInt)
    (hd : s.cfg.params.dwellTicks = 0) :
    phevCruising s = dwellEnd { s with emitq := [s.cfg.params.cmdStop] } := by
  rw [phevCruising, if_pos h, if_pos hd]

theorem phevReversing_before_start {s : State} (h : s.cfg.distStart.toInt < s.dist.toInt) : phevReversing s = s :=
  if_neg (Int.not_le.mpr h)

theorem phevReversing_at_start {s : State} (h : s.dist.toInt ≤ s.cfg.distStart.toInt) :
    phevReversing s = { s with emitq := [s.cfg.params.cmdStop], phase := .stopped } :=
  if_pos h

/-- Settles O37: the row applies the rule of the phase at entry, each rule by DIST against its threshold. -/
theorem phaseEvaluationFollowsThePhase : Obligations.PhaseEvaluationFollowsThePhase := by
  intro s hb hf hw
  have row {t : State} (h : phev s = .next t) := sbmcStep_phev hb hf hw h
  have cruising (hp : s.phase = .cruisingForward) := row (phev_cruising hp)
  have reversing (hp : s.phase = .reversing) := row (phev_reversing hp)
  refine ⟨fun c hp hr hc => row (phev_accelerating hp hr hc), fun hp hd => ?beforeTarget, fun hp hd hk => ?dwell,
    fun hp hd hk => ?noDwell, fun hp hd => ?beforeStart, fun hp hd => ?atStart⟩
  case beforeTarget => rw [cruising hp, phevCruising_before_target hd]
  case dwell => rw [cruising hp, phevCruising_at_target hd hk]
  case noDwell => rw [cruising hp, phevCruising_at_target_of_no_dwell hd hk]; rfl
  case beforeStart => rw [reversing hp, phevReversing_before_start hd]
  case atStart => rw [reversing hp, phevReversing_at_start hd]

/-! ### The emission of drive commands (R255) -/

theorem sbmcStep_emit {s : State} (hb : s.btcStep = 0) (hf : s.fault = 0) (hw : s.tpc = .emit) :
    sbmcStep s = .next (if s.otx.busy then s else emitNext s) := by
  rw [sbmcStep_of_ready hb hf, tickRow, hw]

theorem emitNext_nil {s : State} (h : s.emitq = []) : emitNext s = { s with tpc := .wait } := by
  rw [emitNext, h]

theorem emitNext_cons {s : State} {c : DriveCommand} {rest : List DriveCommand} (h : s.emitq = c :: rest) :
    emitNext s =
      { s with emitq := rest, otx := { data0 := c.b0, data1 := c.b1, busy := true }, out := s.out ++ [c] } := by
  rw [emitNext, h]

/-- Settles O38: the row waits while OTX is busy, and otherwise is `emitNext`, by the queue. -/
theorem emissionHandsOverOneCommand : Obligations.EmissionHandsOverOneCommand := by
  intro s hb hf hw
  rw [sbmcStep_emit hb hf hw]
  refine ⟨fun hbusy => by rw [if_pos hbusy], fun hbusy hq => ?_, fun c rest hbusy hq => ?_⟩
  · rw [hbusy, if_neg Bool.false_ne_true, emitNext_nil hq]
  · rw [hbusy, if_neg Bool.false_ne_true, emitNext_cons hq]

end Sys2Proof.Machine
end

section
/-! Proofs about the refusals of a presented command (spec/60_exceptions.md R281 to R285), in their order of priority
(R294). -/

namespace Sys2Proof.Machine

/-! ### A refusal where no fault is set (R281) -/

/-- Where FAULT = 0, a raised fault's bit is all of FAULT. -/
theorem raise_of_no_fault {s : State} (hf : s.fault = 0) (c : FaultCode) (info : Word) :
    raise c info s = s.refusedWith c.bit info := by
  have hor : s.fault ||| c.bit = c.bit := by rw [hf]; exact BitVec.zero_or
  rw [raise, hor]
  rfl

/-! ### Every word passes acceptance first (R112) -/

/-- A command's meaning is acceptance of its own word, and a body with its own checks. -/
theorem exec_eq_accept (i : Instr) (s : State) : ∃ body, exec i s = .next (accept (encode i) body s) := by
  cases i <;> exact ⟨_, rfl⟩

theorem acceptWord_of_error {w : Word} {e : DecodeError} (h : decode w = .error e) (s : State) :
    acceptWord w s = .next (accept w (raise .illcmd w) s) := by
  rw [acceptWord, h]

theorem acceptWord_of_ok {w : Word} {i : Instr} (h : decode w = .ok i) (s : State) : acceptWord w s = exec i s := by
  rw [acceptWord, h]

/-- The tests of acceptance come before the decoder's verdict, and hold the presented word. -/
theorem acceptWord_eq_accept (w : Word) (s : State) : ∃ body, acceptWord w s = .next (accept w body s) := by
  cases hw : decode w with
  | ok i =>
    rw [acceptWord_of_ok hw, ← encode_of_decode hw]
    exact exec_eq_accept i s
  | error e => exact ⟨_, acceptWord_of_error hw s⟩

/-! ### ILLCMD (R282) -/

/-- The decoder refuses a word that selects no row: an accepted word selects its command's row (R113). -/
theorem decode_error_of_selects_none {w : Word} (h : ∀ r ∈ opcodeRows, r.selects w = false) :
    ∃ e, decode w = .error e := by
  cases hw : decode w with
  | ok i =>
    obtain ⟨r, hr, -, hsel⟩ := encode_selects i
    rw [encode_of_decode hw, h r hr] at hsel
    cases hsel
  | error e => exact ⟨e, rfl⟩

/-- Settles O6: the decoder refuses the word, and at acceptance that refusal is ILLCMD. -/
theorem illegalWordRaisesIllcmd : Obligations.IllegalWordRaisesIllcmd := by
  intro s w hacc hnone
  have ⟨_, hf, _⟩ := hacc
  obtain ⟨e, he⟩ := decode_error_of_selects_none hnone
  rw [acceptWord_of_error he, accept_accepting hacc, raise_of_no_fault hf]
  rfl

/-! ### BADLEN (R283) -/

theorem checkLength_illegal {n : Byte} {depth : Nat} (h : n.toNat = 0 ∨ depth < n.toNat) (cw : Word)
    (body : State → State) (s : State) : checkLength n depth cw body s = raise .badlen cw s :=
  if_pos h

theorem accept_checkLength_illegal {s : State} (hacc : s.accepting) {n : Byte} {depth : Nat}
    (h : n.toNat = 0 ∨ depth < n.toNat) (cw : Word) (body : State → State) :
    accept cw (checkLength n depth cw body) s = s.refusedWith 0x02 cw := by
  have ⟨_, hf, _⟩ := hacc
  rw [accept_accepting hacc, checkLength_illegal h, raise_of_no_fault hf]
  rfl

/-- Settles O8: of an accepted WRBS or RDRS the length is checked first. -/
theorem badLengthRaisesBadlen : Obligations.BadLengthRaisesBadlen := by
  intro s n hacc
  exact ⟨fun hn => congrArg _ (accept_checkLength_illegal hacc hn _ _),
    fun hn f => congrArg _ (accept_checkLength_illegal hacc hn _ _)⟩

/-! ### NOINIT and NOADDR (R284, R285) -/

theorem transaction_before_initm {s : State} (hi : s.initDone = false) (cw : Word) (body : State → State) :
    transaction cw body s = raise .noinit cw s :=
  if_pos hi

theorem transaction_before_setsa {s : State} (hi : s.initDone = true) (hv : s.saValid = false) (cw : Word)
    (body : State → State) : transaction cw body s = raise .noaddr cw s := by
  simp [transaction, hi, hv]

/-- An accepted transaction command of a legal length comes to the checks common to all of them (R159). -/
theorem exec_legalTransaction {s : State} (hacc : s.accepting) {i : Instr}
    (hi : isLegalTransaction s.cfg i = true) : ∃ body, exec i s = .next (transaction (encode i) body s) := by
  cases i with
  | wrb d => exact ⟨_, congrArg _ (accept_accepting hacc _ _)⟩
  | wrr r d => exact ⟨_, congrArg _ (accept_accepting hacc _ _)⟩
  | rdr r => exact ⟨_, congrArg _ (accept_accepting hacc _ _)⟩
  | rdxyz => exact ⟨_, congrArg _ (accept_accepting hacc _ _)⟩
  | wrbs n | rdrs f n =>
    simp only [isLegalTransaction, Bool.and_eq_true, decide_eq_true_eq] at hi
    obtain ⟨h1, hd⟩ := hi
    exact ⟨_, congrArg _ ((accept_accepting hacc _ _).trans (checkLength_legal h1 hd _ _ s))⟩
  | _ => cases hi

theorem exec_setsa_accepted {s : State} (hacc : s.accepting) (a : BusAddr) :
    exec (.setsa a) s = .next (loadList (afterIdle s.initDone (.latchSa a)) s) :=
  congrArg _ (accept_accepting hacc _ _)

/-- Settles O9: NOINIT is the first of the common checks; SETSA has none of them. -/
theorem transactionBeforeInitmRaisesNoinit : Obligations.TransactionBeforeInitmRaisesNoinit := by
  intro s hacc hinit
  have ⟨_, hf, _⟩ := hacc
  refine ⟨fun i hi => ?transaction, fun a => ?setsa⟩
  case transaction =>
    obtain ⟨body, hexec⟩ := exec_legalTransaction hacc hi
    rw [hexec, transaction_before_initm hinit, raise_of_no_fault hf]
    rfl
  case setsa =>
    have hlist : afterIdle s.initDone (.latchSa a) = [.latchSa a] := by rw [hinit]; rfl
    rw [exec_setsa_accepted hacc, hlist]
    rfl

/-- Settles O10: NOADDR is the second of the common checks. -/
theorem transactionBeforeSetsaRaisesNoaddr : Obligations.TransactionBeforeSetsaRaisesNoaddr := by
  intro s i hacc hi hinit hvalid
  have ⟨_, hf, _⟩ := hacc
  obtain ⟨body, hexec⟩ := exec_legalTransaction hacc hi
  rw [hexec, transaction_before_setsa hinit hvalid, raise_of_no_fault hf]
  rfl

end Sys2Proof.Machine
end

section
/-! Proofs about the refusals of a host access (spec/60_exceptions.md R288, R289): which offsets have no register, which
registers are read-only, and what the host may not write in AUTO mode. -/

namespace Sys2Proof.Machine

/-! ### Access rights (R20, R40) -/

/-- The registers marked RO in R20's table. -/
def HostReg.readOnly : HostReg → Bool
  | .cmd => false
  | .acc => false
  | .vel => false
  | .dist => false
  | .txb _ => false
  | _ => true

/-- The registers marked RW* in R20's table: writable while RUN = 0. -/
def HostReg.hostModeWritable : HostReg → Bool
  | .acc => true
  | .vel => true
  | .dist => true
  | .txb _ => true
  | _ => false

theorem hostReg_of_illegal {off : BitVec 8} (h : off.toNat % 4 ≠ 0 ∨ 0xBC < off.toNat) : hostReg off = none :=
  if_pos h

theorem hostReg_of_legal {off : BitVec 8} (h4 : off.toNat % 4 = 0) (hle : off.toNat ≤ 0xBC) :
    hostReg off = some (hostRegAt (off.toNat / 4)) :=
  if_neg (by omega)

theorem hostRegAt_readOnly :
    ∀ i < 48, (1 ≤ i ∧ i ≤ 5) ∨ (9 ≤ i ∧ i ≤ 15) ∨ 32 ≤ i → (hostRegAt i).readOnly = true := by decide

theorem hostRegAt_hostModeWritable :
    ∀ i < 48, (6 ≤ i ∧ i ≤ 8) ∨ (16 ≤ i ∧ i ≤ 31) → (hostRegAt i).hostModeWritable = true := by decide

/-! ### A write by the right of its register (R46) -/

/-- A write to an RO register is refused with HACC in either mode. -/
theorem hostWrite_of_readOnly {s : State} (hf : s.fault = 0) {off : BitVec 8} {r : HostReg} (h : hostReg off = some r)
    (hr : r.readOnly = true) (v : Word) : hostWrite off v s = .next (raise .hacc (accessInfo true off) s) := by
  rw [hostWrite, if_neg (not_not.mpr hf), h]
  cases r with
  | cmd | acc | vel | dist | txb => cases hr
  | _ => rfl

/-- A write to an RW* register is a store, which `storeReg` guards. -/
theorem hostWrite_of_hostModeWritable {s : State} (hf : s.fault = 0) {off : BitVec 8} {r : HostReg}
    (h : hostReg off = some r) (hr : r.hostModeWritable = true) (v : Word) :
    ∃ store, hostWrite off v s = .next (storeReg off store s) := by
  rw [hostWrite, if_neg (not_not.mpr hf), h]
  cases r with
  | acc | vel | dist | txb => exact ⟨_, rfl⟩
  | _ => cases hr

theorem hostWrite_of_illegal {s : State} (hf : s.fault = 0) {off : BitVec 8} (h : hostReg off = none) (v : Word) :
    hostWrite off v s = .next (raise .hacc (accessInfo true off) s) := by
  rw [hostWrite, if_neg (not_not.mpr hf), h]

theorem hostWrite_cmd {s : State} (hf : s.fault = 0) (v : Word) : hostWrite 0x00 v s = acceptWord v s := by
  rw [hostWrite, if_neg (not_not.mpr hf)]
  rfl

/-! ### A read at an illegal offset (R45) -/

theorem hostRead_of_illegal {s : State} (hf : s.fault = 0) {off : BitVec 8} (h : hostReg off = none) :
    hostRead off s = { raise .hacc (accessInfo false off) s with hrdata := 0 } := by
  rw [hostRead, h]
  simp only [if_neg (not_not.mpr hf)]

/-- Once FAULT ≠ 0 the read raises nothing (R281 (c)). -/
theorem hostRead_of_illegal_of_fault {s : State} (hf : s.fault ≠ 0) {off : BitVec 8} (h : hostReg off = none) :
    hostRead off s = { s with hrdata := 0 } := by
  rw [hostRead, h]
  simp only [if_pos hf]

/-! ### HACC (R288) -/

theorem accessInfo_read (off : BitVec 8) : accessInfo false off = 0xFF000000 ||| off.setWidth 32 :=
  congrArg (· ||| off.setWidth 32) (by decide)

theorem accessInfo_write (off : BitVec 8) : accessInfo true off = 0xFF000100 ||| off.setWidth 32 :=
  congrArg (· ||| off.setWidth 32) (by decide)

/-- HACC's refusal of a write, in the numbers of R288. -/
theorem raise_hacc_write {s : State} (hf : s.fault = 0) (off : BitVec 8) :
    raise .hacc (accessInfo true off) s = s.refusedWith 0x40 (0xFF000100 ||| off.setWidth 32) := by
  rw [raise_of_no_fault hf, accessInfo_write]
  rfl

/-- R288's third test, by offset; CLFOWN is tested after it (R289), so the mode does not matter. -/
theorem hostWrite_readOnly_offset {s : State} (hf : s.fault = 0) {off : BitVec 8} (h4 : off.toNat % 4 = 0)
    (hro : (4 ≤ off.toNat ∧ off.toNat ≤ 0x14) ∨ (0x24 ≤ off.toNat ∧ off.toNat ≤ 0x3C) ∨
      (0x80 ≤ off.toNat ∧ off.toNat ≤ 0xBC)) (v : Word) :
    hostWrite off v s = .next (s.refusedWith 0x40 (0xFF000100 ||| off.setWidth 32)) := by
  have hreg := hostReg_of_legal h4 (by omega)
  have hro' := hostRegAt_readOnly (off.toNat / 4) (by omega) (by omega)
  rw [hostWrite_of_readOnly hf hreg hro', raise_hacc_write hf]

/-- Settles O48: an illegal offset has no register, the offsets of the second clause have read-only ones, and CMD is a
register that reads as 0. -/
theorem illegalAccessRaisesHacc : Obligations.IllegalAccessRaisesHacc := by
  intro s off v
  refine ⟨fun hoff hf => ⟨?read, ?write⟩, fun h4 hro hf => hostWrite_readOnly_offset hf h4 hro v,
    hostRead_four_mul (i := 0) (by decide) s, fun hoff hf => hostRead_of_illegal_of_fault hf (hostReg_of_illegal hoff)⟩
  case read =>
    rw [hostRead_of_illegal hf (hostReg_of_illegal hoff), raise_of_no_fault hf, accessInfo_read]
    rfl
  case write => rw [hostWrite_of_illegal hf (hostReg_of_illegal hoff), raise_hacc_write hf]

/-! ### CLFOWN (R289) -/

/-- In AUTO mode a word presented by the host is refused before it is decoded. -/
theorem acceptWord_auto {s : State} (hi : s.idle = true) (hf : s.fault = 0) (hr : s.run = true) (w : Word) :
    acceptWord w s = .next (raise .clfown w s) := by
  obtain ⟨hb, hw⟩ := (idle_iff s).mp hi
  obtain ⟨body, hbody⟩ := acceptWord_eq_accept w s
  rw [hbody, accept_auto hb hf hw hr]

theorem storeReg_auto {s : State} (hr : s.run = true) (off : BitVec 8) (store : State → State) :
    storeReg off store s = raise .clfown (accessInfo true off) s :=
  if_pos hr

/-- Settles O49: a word for CMD fails the test of acceptance, a store to an RW* register that of `storeReg`, and a write
to a read-only register fails HACC's before either. -/
theorem hostWriteInAutoModeRaisesClfown : Obligations.HostWriteInAutoModeRaisesClfown := by
  intro s off v hi hf hr
  refine ⟨?cmd, fun h4 hrw => ?rw, fun h4 hro => hostWrite_readOnly_offset hf h4 hro v⟩
  case cmd =>
    rw [hostWrite_cmd hf, acceptWord_auto hi hf hr, raise_of_no_fault hf]
    rfl
  case rw =>
    have hreg := hostReg_of_legal h4 (by omega)
    have hrw' := hostRegAt_hostModeWritable (off.toNat / 4) (by omega) (by omega)
    obtain ⟨store, hstore⟩ := hostWrite_of_hostModeWritable hf hreg hrw' v
    rw [hstore, storeReg_auto hr, raise_of_no_fault hf, accessInfo_write]
    rfl

end Sys2Proof.Machine
end

section
/-! Proofs about the tick input (spec/60_exceptions.md R291). -/

namespace Sys2Proof.Machine

/-- A step whose event the schedule names: the event is taken out and performed. -/
theorem step_of_sched {s : State} {ev : Event} {evs : List Event} (h : s.sched = ev :: evs) :
    step s = perform ev { s with sched := evs } := by
  rw [step_eq, nextEvent_cons h, State.eventTaken, h, List.tail_cons]

/-- Settles O34: the step is TickArrive on the state with the event taken out of the schedule, which none of its tests
reads. -/
theorem tickArriveSetsThePendingFlag : Obligations.TickArriveSetsThePendingFlag := by
  intro s evs h
  rw [step_of_sched h]
  rfl

end Sys2Proof.Machine
end

section
/-! What one step of the machine can do, said once: the lists a command may load (spec/40_btc_commands.md R142), a
presented word (spec/30_encoding.md R112), a host access (spec/10_state.md R44 to R46), the rows of the tick program
(spec/43_clf.md R244 to R256), and the step of any agent (spec/00_scope.md R11). -/

namespace Sys2Proof.Machine

/-! ### The lists a command may load (R142) -/

/-- No START follows a `START_R` in the list. -/
def TurnsOnce (l : List MicroOp) : Prop := (l.dropWhile (· ≠ .startR)).countP MicroOp.isStart ≤ 1

/-- A START stands in the list with no `W_IDLE` before it. -/
def startAhead (l : List MicroOp) : Bool := (l.takeWhile (· ≠ .wIdle)).any MicroOp.isStart

/-- What every list of R142 gives the invariants: it is not empty, no START follows a `START_R`, and a `W_IDLE` stands
before the first START. -/
structure CommandList (l : List MicroOp) : Prop where
  nonempty : l ≠ []
  turnsOnce : TurnsOnce l
  startsAfterIdle : startAhead l = false

theorem commandList_afterIdle_init (b : Bool) : CommandList (afterIdle b .init) := by
  cases b <;> exact ⟨nofun, Nat.zero_le 1, rfl⟩

theorem commandList_afterIdle_latchSa (b : Bool) (a : BusAddr) : CommandList (afterIdle b (.latchSa a)) := by
  cases b <;> exact ⟨nofun, Nat.zero_le 1, rfl⟩

theorem not_isStart_of_mem_bytes {bytes : List Byte} {u : MicroOp}
    (h : u ∈ bytes.flatMap (fun b => [.wTx, .tx b])) : u.isStart = false ∧ u ≠ .startR := by
  obtain ⟨b, -, hu⟩ := List.mem_flatMap.mp h
  simp only [List.mem_cons, List.not_mem_nil, or_false] at hu
  rcases hu with rfl | rfl <;> exact ⟨rfl, nofun⟩

/-- A write has one START, after its `W_IDLE`. -/
theorem commandList_writeList (bytes : List Byte) : CommandList (writeList bytes) := by
  have hbytes : (bytes.flatMap (fun b => [MicroOp.wTx, .tx b])).countP MicroOp.isStart = 0 :=
    List.countP_eq_zero.mpr fun u hu => by simp [(not_isStart_of_mem_bytes hu).1]
  have hcount : (writeList bytes).countP MicroOp.isStart = 1 := by
    simp [writeList, hbytes, MicroOp.isStart, List.countP_cons]
  refine ⟨nofun, ?_, rfl⟩
  exact ((List.dropWhile_sublist _).countP_le).trans hcount.le

theorem burst_not_isStart {count : Nat} {n : Nat} {u : MicroOp}
    (h : u ∈ (List.range n).flatMap (burstStep count)) : u.isStart = false := by
  obtain ⟨i, -, hu⟩ := List.mem_flatMap.mp h
  unfold burstStep at hu
  split at hu <;> simp only [List.mem_cons, List.not_mem_nil, or_false] at hu
  · rcases hu with rfl | rfl | rfl <;> rfl
  · rcases hu with rfl | rfl <;> rfl

/-- A read is `readHead`, which turns the transaction round, and a tail without a START. -/
theorem commandList_readHead_append (reg : Byte) {tail : List MicroOp} (h : ∀ u ∈ tail, u.isStart = false) :
    CommandList (readHead reg ++ tail) := by
  have htail : tail.countP MicroOp.isStart = 0 := List.countP_eq_zero.mpr fun u hu => by simp [h u hu]
  have hdrop : (readHead reg ++ tail).dropWhile (· ≠ .startR) = .startR :: .wStt :: tail := by
    simp [readHead, List.dropWhile]
  refine ⟨nofun, ?_, rfl⟩
  rw [TurnsOnce, hdrop]
  simp [htail, MicroOp.isStart, List.countP_cons]

theorem commandList_readOneList (reg : Byte) : CommandList (readOneList reg) :=
  commandList_readHead_append reg (by simp [MicroOp.isStart])

theorem commandList_readList (f : Byte) (c : Nat) : CommandList (readList f c) := by
  unfold readList
  split
  · exact commandList_readOneList f
  · exact commandList_readHead_append f fun _ => burst_not_isStart

/-! ### A presented word (R112) -/

theorem no_command_of_accepting {s : State} (h : s.accepting) : s.btcStep = 0 :=
  have ⟨hb, _, _⟩ := h
  hb

theorem no_fault_of_accepting {s : State} (h : s.accepting) : s.fault = 0 :=
  have ⟨_, hf, _⟩ := h
  hf

/-- What the host presents is accepted in HOST mode only. -/
theorem host_mode_of_accepting {s : State} (h : s.accepting) (hw : s.tpc = .wait) : s.run = false :=
  have ⟨_, _, hr⟩ := h
  hr hw

/-- All that presenting a word to the state can do: it is discarded, refused, or accepted, and then has its command's
effect. -/
inductive Presented (s : State) : State → Prop where
  | discarded : s.btcStep ≠ 0 ∨ s.fault ≠ 0 → Presented s s
  | refused (c : FaultCode) (info : Word) : s.btcStep = 0 → s.fault = 0 → Presented s (raise c info s)
  | loaded (l : List MicroOp) (xyz : Bool) : s.accepting → CommandList l →
      Presented s { s with ulist := l, btcStep := 1, btcXyz := xyz }
  | decoded (v : Word) : s.accepting → Presented s { s with res := v }
  | cleared : s.accepting → Presented s { s with sum := 0, scnt := 0 }
  | accumulated : s.accepting → s.scnt.toNat < s.cfg.nAvg →
      Presented s { s with sum := s.sum + driveSample s, scnt := s.scnt + 1 }
  | integrated (a v d : Word) : s.accepting → Presented s { s with acc := a, vel := v, dist := d }
  | started : s.accepting → Presented s (startCourse s)

/-- Acceptance decides between discarding, CLFOWN and the command's own body. -/
theorem presented_accept {s : State} (cw : Word) {body : State → State} (h : s.accepting → Presented s (body s)) :
    Presented s (accept cw body s) := by
  rcases accept_cases cw body s with ⟨hd, e⟩ | ⟨hb, hf, -, -, e⟩ | ⟨ha, e⟩ <;> rw [e]
  · exact .discarded hd
  · exact .refused _ _ hb hf
  · exact h ha

theorem presented_raise {s : State} (h : s.accepting) (c : FaultCode) (info : Word) : Presented s (raise c info s) :=
  .refused c info (no_command_of_accepting h) (no_fault_of_accepting h)

theorem presented_transaction {s : State} (h : s.accepting) (cw : Word) {body : State → State}
    (hb : Presented s (body s)) : Presented s (transaction cw body s) := by
  rcases transaction_cases cw body s with ⟨-, e⟩ | ⟨-, -, e⟩ | ⟨-, -, e⟩ <;> rw [e]
  · exact presented_raise h _ _
  · exact presented_raise h _ _
  · exact hb

theorem presented_checkLength {s : State} (h : s.accepting) (n : Byte) (depth : Nat) (cw : Word)
    {body : State → State} (hb : Presented s (body s)) : Presented s (checkLength n depth cw body s) := by
  rcases checkLength_cases n depth cw body s with ⟨-, e⟩ | ⟨-, -, e⟩ <;> rw [e]
  · exact presented_raise h _ _
  · exact hb

theorem presented_accumulate {s : State} (h : s.accepting) : Presented s (accumulate s) := by
  rcases accumulate_cases s with ⟨-, e⟩ | ⟨hc, e⟩ <;> rw [e]
  · exact presented_raise h _ _
  · exact .accumulated h hc

theorem presented_deliverAverage {s : State} (h : s.accepting) : Presented s (deliverAverage s) := by
  rcases deliverAverage_cases s with ⟨-, e⟩ | ⟨-, e⟩ <;> rw [e]
  · exact presented_raise h _ _
  · exact .integrated _ s.vel s.dist h

theorem presented_updateVelocity {s : State} (h : s.accepting) : Presented s (updateVelocity s) := by
  rcases updateVelocity_cases s with ⟨-, e⟩ | ⟨-, e⟩ <;> rw [e]
  · exact .integrated s.acc _ s.dist h
  · exact presented_raise h _ _

theorem presented_updateDistance {s : State} (h : s.accepting) : Presented s (updateDistance s) := by
  rcases updateDistance_cases s with ⟨-, e⟩ | ⟨-, e⟩ <;> rw [e]
  · exact .integrated s.acc s.vel _ h
  · exact presented_raise h _ _

/-- A command presented. -/
theorem presented_of_exec {i : Instr} {s t : State} (h : exec i s = .next t) : Presented s t := by
  have load {l : List MicroOp} (xyz : Bool) (ha : s.accepting) (hl : CommandList l) :
      Presented s { s with ulist := l, btcStep := 1, btcXyz := xyz } := .loaded l xyz ha hl
  cases i <;> injection h with h <;> subst h <;> refine presented_accept _ fun ha => ?_
  case initm => exact load false ha (commandList_afterIdle_init _)
  case setsa a => exact load false ha (commandList_afterIdle_latchSa _ a)
  case wrb d => exact presented_transaction ha _ (load false ha (commandList_writeList _))
  case wrbs n =>
    exact presented_checkLength ha _ _ _ (presented_transaction ha _ (load false ha (commandList_writeList _)))
  case wrr r d => exact presented_transaction ha _ (load false ha (commandList_writeList _))
  case rdr r => exact presented_transaction ha _ (load false ha (commandList_readOneList r))
  case rdrs f c =>
    exact presented_checkLength ha _ _ _ (presented_transaction ha _ (load false ha (commandList_readList f _)))
  case rdxyz => exact presented_transaction ha _ (load true ha (commandList_readList _ 7))
  case dec12 lo hi => exact .decoded _ ha
  case sclr => exact .cleared ha
  case sacc => exact presented_accumulate ha
  case savg => exact presented_deliverAverage ha
  case updv => exact presented_updateVelocity ha
  case updd => exact presented_updateDistance ha
  case run => exact .started ha

theorem presented_of_acceptWord {w : Word} {s t : State} (h : acceptWord w s = .next t) : Presented s t := by
  cases hw : decode w with
  | ok i => exact presented_of_exec ((acceptWord_of_ok hw s).symm.trans h)
  | error e =>
    rw [acceptWord_of_error hw] at h
    injection h with h
    subst h
    exact presented_accept _ fun ha => presented_raise ha _ _

/-! ### A host access (R44 to R46) -/

/-- All that a host access can do, but for the request it takes. -/
inductive Accessed (s : State) : State → Prop where
  | answered (v : Word) : Accessed s { s with hrdata := v }
  | refused (c : FaultCode) (info v : Word) : s.fault = 0 → Accessed s { raise c info s with hrdata := v }
  | stored (a v d : Word) (b : Vector Byte bufferSize) : s.fault = 0 → s.run = false →
      Accessed s { s with acc := a, vel := v, dist := d, txb := b }
  | presented {t : State} : Presented s t → Accessed s t

theorem accessed_hostRead (off : BitVec 8) (s : State) : Accessed s (hostRead off s) := by
  unfold hostRead
  split
  · exact .answered _
  · split
    · exact .answered 0
    · exact .refused _ _ 0 (not_not.mp ‹_›)

/-- A store, which CLFOWN may refuse (R289). -/
theorem accessed_storeReg {s : State} (hf : s.fault = 0) (off : BitVec 8) {store : State → State}
    (h : s.run = false → Accessed s (store s)) : Accessed s (storeReg off store s) := by
  rcases storeReg_cases off store s with ⟨-, e⟩ | ⟨hr, e⟩ <;> rw [e]
  · exact .refused _ _ s.hrdata hf
  · exact h hr

theorem accessed_of_hostWrite {off : BitVec 8} {v : Word} {s t : State} (h : hostWrite off v s = .next t) :
    Accessed s t := by
  unfold hostWrite at h
  split at h
  · injection h with h
    subst h
    exact .answered s.hrdata
  · have hf : s.fault = 0 := not_not.mp ‹_›
    split at h
    case h_1 => exact .presented (presented_of_acceptWord h)
    all_goals
      injection h with h
      subst h
    case h_2 => exact accessed_storeReg hf off fun hr => .stored v s.vel s.dist s.txb hf hr
    case h_3 => exact accessed_storeReg hf off fun hr => .stored s.acc v s.dist s.txb hf hr
    case h_4 => exact accessed_storeReg hf off fun hr => .stored s.acc s.vel v s.txb hf hr
    case h_5 => exact accessed_storeReg hf off fun hr => .stored s.acc s.vel s.dist _ hf hr
    case h_6 => exact .refused _ _ s.hrdata hf

theorem accessed_of_hostAccess {r : HostReq} {s t : State} (h : hostAccess r s = .next t) : Accessed s t := by
  cases r with
  | read off =>
    injection h with h
    exact h ▸ accessed_hostRead off s
  | write off v => exact accessed_of_hostWrite h

/-! ### The tick program (R244 to R256) -/

/-- All that the phase evaluation can do (R248 to R254). -/
inductive PhaseRule (s : State) : State → Prop where
  | rests : s.phase ≠ .accelerating → PhaseRule s s
  | ramps (c : DriveCommand) : s.phase = .accelerating → speedCommand s.cfg (s.ramp + 1).toNat = some c →
      PhaseRule s { s with
        ramp := s.ramp + 1
        emitq := [c]
        phase := if (s.ramp + 1).toNat = s.cfg.nRamp then .cruisingForward else .accelerating }
  | dwells : s.phase = .cruisingForward → s.cfg.params.dwellTicks ≠ 0 →
      PhaseRule s { s with emitq := [s.cfg.params.cmdStop], dwell := s.cfg.params.dwellTicks }
  | reverses : s.phase = .cruisingForward → PhaseRule s (dwellEnd { s with emitq := [s.cfg.params.cmdStop] })
  | stops : s.phase = .reversing → PhaseRule s { s with emitq := [s.cfg.params.cmdStop], phase := .stopped }

theorem phaseRule_phevCruising {s : State} (hp : s.phase = .cruisingForward) : PhaseRule s (phevCruising s) := by
  unfold phevCruising
  split
  · split
    · exact .reverses hp
    · exact .dwells hp ‹_›
  · exact .rests (by simp [hp])

theorem phaseRule_phevReversing {s : State} (hp : s.phase = .reversing) : PhaseRule s (phevReversing s) := by
  unfold phevReversing
  split
  · exact .stops hp
  · exact .rests (by simp [hp])

theorem phaseRule_of_phevAccelerating {s t : State} (hp : s.phase = .accelerating) (h : phevAccelerating s = .next t) :
    PhaseRule s t := by
  unfold phevAccelerating at h
  rw [hp] at h
  cases hc : speedCommand s.cfg (s.ramp + 1).toNat with
  | none => rw [hc] at h; cases h
  | some c =>
    rw [hc] at h
    injection h with h
    exact h ▸ .ramps c hp hc

theorem phaseRule_of_phev {s t : State} (h : phev s = .next t) : PhaseRule s t := by
  unfold phev at h
  split at h
  · exact phaseRule_of_phevAccelerating ‹_› h
  all_goals
    injection h with h
    subst h
  · exact phaseRule_phevCruising ‹_›
  · exact phaseRule_phevReversing ‹_›
  · exact .rests (by simp [‹s.phase = .stopped›])

/-- All that a step of the tick program can do (R244 to R256), with no command in progress and no fault. -/
inductive Row (s : State) : State → Prop where
  | rests : Row s s
  | samples : s.tickStartEnabled = true → s.dwell = 0 → Row s { s with tickPend := false, tpc := .sclr }
  | dwells : s.tickStartEnabled = true → s.dwell ≠ 0 → s.dwell ≠ 1 →
      Row s { s with tickPend := false, dwell := s.dwell - 1, tpc := .emit }
  | dwellEnds : s.tickStartEnabled = true → s.dwell = 1 →
      Row s { dwellEnd { s with tickPend := false, dwell := 0 } with tpc := .emit }
  | refused (c : FaultCode) (info : Word) : s.tpc.sampling = true → Row s (raise c info s)
  | cleared : s.tpc = .sclr → Row s { s with sum := 0, scnt := 0, srep := s.cfg.nAvg, tpc := .read }
  | loaded (l : List MicroOp) : s.tpc = .read → CommandList l →
      Row s { s with ulist := l, btcStep := 1, btcXyz := true, tpc := .acc }
  | accumulated : s.tpc = .acc → s.scnt.toNat < s.cfg.nAvg →
      Row s { s with
        sum := s.sum + driveSample s, scnt := s.scnt + 1, srep := s.srep - 1
        tpc := if 0 < s.srep - 1 then .read else .avg }
  | averaged (a : Word) : s.tpc = .avg → Row s { s with acc := a, tpc := .updv }
  | velocity (v : Word) : s.tpc = .updv → Row s { s with vel := v, tpc := .updd }
  | distance (d : Word) : s.tpc = .updd → Row s { s with dist := d, tpc := .phev }
  | evaluated {t : State} : s.tpc = .phev → PhaseRule s t → Row s { t with tpc := .emit }
  | emitted (c : DriveCommand) (rest : List DriveCommand) : s.tpc = .emit → s.emitq = c :: rest →
      Row s { s with emitq := rest, otx := { data0 := c.b0, data1 := c.b1, busy := true }, out := s.out ++ [c] }
  | ended : s.tpc = .emit → s.emitq = [] → Row s { s with tpc := .wait }

end Sys2Proof.Machine
end

section
/-! Proofs about the Sample Filter Unit (spec/41_sensor_sfu.md) and the operations of the Motion Integrator Unit
(spec/42_miu.md R221, R222). -/

namespace Sys2Proof.Machine

/-! ### The 12-bit sample (R192) -/

/-- The raw sample as a number: the two bytes do not overlap. -/
theorem sample_raw_toNat (lo hi : Byte) :
    ((hi &&& 0x0F#8).toNat <<< 8) ||| lo.toNat = hi.toNat % 16 * 256 + lo.toNat := by
  have hnibble : (hi &&& 0x0F#8).toNat = hi.toNat % 16 := by
    rw [BitVec.toNat_and]
    exact Nat.and_two_pow_sub_one_eq_mod hi.toNat 4
  rw [hnibble, ← Nat.shiftLeft_add_eq_or_of_lt lo.isLt, Nat.shiftLeft_eq]

theorem dec12_eq (lo hi : Byte) :
    dec12 lo hi = if 2048 ≤ hi.toNat % 16 * 256 + lo.toNat
      then ((hi.toNat % 16 * 256 + lo.toNat : Nat) : Int) - 4096
      else ((hi.toNat % 16 * 256 + lo.toNat : Nat) : Int) := by
  simp only [dec12, sample_raw_toNat]

/-- R197 (a). -/
theorem dec12_range (lo hi : Byte) : -2048 ≤ dec12 lo hi ∧ dec12 lo hi ≤ 2047 := by
  have hlo := lo.isLt
  rw [dec12_eq]
  split <;> omega

/-- The same number as the 12-bit vector of the low nibble and the low byte. -/
theorem sample_append_toNat (lo hi : Byte) :
    (hi.extractLsb' 0 4 ++ lo).toNat = hi.toNat % 16 * 256 + lo.toNat := by
  rw [BitVec.toNat_append, ← Nat.shiftLeft_add_eq_or_of_lt lo.isLt, Nat.shiftLeft_eq]
  simp

/-- Settles O24: the decode's comparison with 2048 is the test of the 12-bit vector's sign. -/
theorem dec12IsTwelveBitTwosComplement : Obligations.Dec12IsTwelveBitTwosComplement := by
  intro lo hi
  refine ⟨?_, dec12_range lo hi⟩
  rw [dec12_eq, BitVec.toInt_eq_toNat_cond, sample_append_toNat]
  split <;> split <;> omega

/-- A decoded sample in its register is a sample. -/
theorem sampleRange_decodeSample (lo hi : Byte) : sampleRange (decodeSample lo hi) := by
  obtain ⟨hmin, hmax⟩ := dec12_range lo hi
  have hfits : fits32 (dec12 lo hi) = true := (fits32_iff _).mpr ⟨by omega, by omega⟩
  rw [sampleRange, decodeSample, toInt_ofInt_of_fits32 hfits]
  exact ⟨hmin, hmax⟩

/-! ### The commands of the SFU at acceptance (R192 to R195) -/

section Accepted
variable {s : State} (h : s.accepting)
include h

theorem exec_dec12_accepted (lo hi : Byte) : exec (.dec12 lo hi) s = .next { s with res := decodeSample lo hi } :=
  congrArg _ (accept_accepting h _ _)

theorem exec_sclr_accepted : exec .sclr s = .next { s with sum := 0, scnt := 0 } :=
  congrArg _ (accept_accepting h _ _)

theorem exec_sacc_accepted : exec .sacc s = .next (accumulate s) :=
  congrArg _ (accept_accepting h _ _)

theorem exec_savg_accepted : exec .savg s = .next (deliverAverage s) :=
  congrArg _ (accept_accepting h _ _)

end Accepted

theorem accumulate_of_room {s : State} (h : s.scnt.toNat < s.cfg.nAvg) :
    accumulate s = { s with sum := s.sum + driveSample s, scnt := s.scnt + 1 } :=
  if_neg (Nat.not_le.mpr h)

theorem accumulate_of_full {s : State} (h : s.cfg.nAvg ≤ s.scnt.toNat) :
    accumulate s = raise .badseq (encode .sacc) s :=
  if_pos h

theorem deliverAverage_of_full {s : State} (h : s.scnt.toNat = s.cfg.nAvg) :
    deliverAverage s = { s with acc := average s.cfg s.sum } :=
  if_neg (not_not.mpr h)

theorem deliverAverage_of_not_full {s : State} (h : s.scnt.toNat ≠ s.cfg.nAvg) :
    deliverAverage s = raise .badseq (encode .savg) s :=
  if_pos h

/-- Settles O23: RES holds the pattern of `dec12`. -/
theorem dec12WritesTheDecodedSample : Obligations.Dec12WritesTheDecodedSample := by
  intro s lo hi hacc
  rw [exec_dec12_accepted hacc, decodeSample, dec12_eq]

/-- Settles O25. -/
theorem sclrClearsTheAccumulator : Obligations.SclrClearsTheAccumulator :=
  fun _ hacc => exec_sclr_accepted hacc

/-- Settles O26: the accepted command is `accumulate`, by the room left. -/
theorem saccAddsTheDriveSample : Obligations.SaccAddsTheDriveSample := by
  intro s hacc
  have ⟨_, hf, _⟩ := hacc
  rw [exec_sacc_accepted hacc]
  refine ⟨fun hroom => congrArg _ (accumulate_of_room hroom), fun hfull => ?_⟩
  rw [accumulate_of_full hfull, raise_of_no_fault hf]
  rfl

/-! ### Division that truncates toward zero, as the library's (R9) -/

theorem tdiv_natCast (n b : Nat) : tdiv (n : Int) b = (n / b : Nat) := by
  rcases Nat.eq_zero_or_pos n with rfl | hn
  · simp [tdiv]
  · rw [tdiv, Int.sign_eq_one_of_pos (by exact_mod_cast hn), Int.natAbs_natCast, Int.one_mul]

theorem tdiv_eq_int_tdiv (a : Int) (b : Nat) : tdiv a b = a.tdiv b := by
  obtain ⟨n, rfl | rfl⟩ := a.eq_nat_or_neg
  · rw [tdiv_natCast, Int.ofNat_tdiv]
  · rw [tdiv_neg, tdiv_natCast, Int.neg_tdiv, Int.ofNat_tdiv]

/-- Settles O27: the accepted command is `deliverAverage`, by SCNT. -/
theorem savgDeliversTheMaskedAverage : Obligations.SavgDeliversTheMaskedAverage := by
  intro s hacc
  have ⟨_, hf, _⟩ := hacc
  rw [exec_savg_accepted hacc]
  refine ⟨fun hfull => ?full, fun hnot => ?notFull⟩
  case full => rw [deliverAverage_of_full hfull, average, noiseMask, tdiv_eq_int_tdiv]
  case notFull =>
    rw [deliverAverage_of_not_full hnot, raise_of_no_fault hf]
    rfl

/-! ### The average of samples (R195 to R197) -/

/-- The constraints of R6 on the filter. -/
theorem filter_constraints {c : Config} (h : c.wellFormed = true) : (c.nAvg = 4 ∨ c.nAvg = 8) ∧ c.maskBits ≤ 11 := by
  simp only [Config.wellFormed, Bool.and_eq_true, Bool.or_eq_true, decide_eq_true_eq] at h
  tauto

/-- The samples as unsigned patterns. -/
theorem sampleRange_iff (w : Word) : sampleRange w ↔ w.toNat ≤ 2047 ∨ 2 ^ 32 - 2 ^ 11 ≤ w.toNat := by
  have := w.isLt
  rw [sampleRange, BitVec.toInt_eq_toNat_cond]
  split <;> omega

/-- Clearing the low bits rounds the pattern down to a multiple of `2 ^ bits`. -/
theorem noiseMask_toNat (bits : Nat) (v : Word) : (noiseMask bits v).toNat = v.toNat / 2 ^ bits * 2 ^ bits := by
  have hshift : noiseMask bits v = v >>> bits <<< bits := by
    refine BitVec.eq_of_getLsbD_eq fun i hi => ?_
    have hones : (0xFFFFFFFF#32) = BitVec.allOnes 32 := by decide
    rw [noiseMask, hones]
    simp only [BitVec.getLsbD_and, BitVec.getLsbD_shiftLeft, BitVec.getLsbD_allOnes, BitVec.getLsbD_ushiftRight, hi]
    by_cases hb : i < bits
    · simp [hb]
    · have h1 : i - bits < 32 := by omega
      have h2 : bits + (i - bits) = i := by omega
      simp [hb, h1, h2]
  have hle : v.toNat / 2 ^ bits * 2 ^ bits < 2 ^ 32 := (Nat.div_mul_le_self _ _).trans_lt v.isLt
  rw [hshift, BitVec.toNat_shiftLeft, BitVec.toNat_ushiftRight, Nat.shiftRight_eq_div_pow, Nat.shiftLeft_eq,
    Nat.mod_eq_of_lt hle]

/-- A masked sample is a sample: the least of them, -2048, is a multiple of every mask's `2 ^ bits`. -/
theorem sampleRange_noiseMask {bits : Nat} (hb : bits ≤ 11) {v : Word} (h : sampleRange v) :
    sampleRange (noiseMask bits v) := by
  rw [sampleRange_iff] at h ⊢
  rw [noiseMask_toNat]
  rcases h with h | h
  · exact .inl ((Nat.div_mul_le_self _ _).trans h)
  · have hdvd : 2 ^ bits ∣ 2 ^ 32 - 2 ^ 11 := (pow_dvd_pow 2 hb).trans (by decide)
    refine .inr ?_
    calc 2 ^ 32 - 2 ^ 11 = (2 ^ 32 - 2 ^ 11) / 2 ^ bits * 2 ^ bits := (Nat.div_mul_cancel hdvd).symm
      _ ≤ v.toNat / 2 ^ bits * 2 ^ bits := Nat.mul_le_mul_right _ (Nat.div_le_div_right h)

/-- The truncated quotient of a sum of `n` samples. -/
theorem tdiv_range {n : Nat} {a : Int} (hlow : -2048 * (n : Int) ≤ a) (hhigh : a ≤ 2047 * (n : Int)) :
    -2048 ≤ tdiv a n ∧ tdiv a n ≤ 2047 := by
  obtain ⟨m, rfl | rfl⟩ := a.eq_nat_or_neg
  · have hm : m / n ≤ 2047 := Nat.div_le_of_le_mul (by rw [Nat.mul_comm]; exact_mod_cast hhigh)
    rw [tdiv_natCast]
    generalize m / n = q at hm ⊢
    omega
  · have hm : m / n ≤ 2048 := Nat.div_le_of_le_mul (by rw [Nat.mul_comm]; zify; linarith)
    rw [tdiv_neg, tdiv_natCast]
    generalize m / n = q at hm ⊢
    omega

theorem sampleRange_average {c : Config} (hc : c.wellFormed = true) {sum : Word}
    (hlow : -2048 * (c.nAvg : Int) ≤ sum.toInt) (hhigh : sum.toInt ≤ 2047 * (c.nAvg : Int)) :
    sampleRange (average c sum) := by
  obtain ⟨hmin, hmax⟩ := tdiv_range hlow hhigh
  have hfits : fits32 (tdiv sum.toInt c.nAvg) = true := (fits32_iff _).mpr ⟨by omega, by omega⟩
  refine sampleRange_noiseMask (filter_constraints hc).2 ?_
  rw [sampleRange, toInt_ofInt_of_fits32 hfits]
  exact ⟨hmin, hmax⟩

theorem noiseMask_zero (v : Word) : noiseMask 0 v = v := by
  refine BitVec.eq_of_toNat_eq ?_
  rw [noiseMask_toNat, pow_zero, Nat.div_one, Nat.mul_one]

/-- R197 (b). -/
theorem average_of_equal_samples {c : Config} (hc : c.wellFormed = true) (hm : c.maskBits = 0) {v : Int}
    (hlow : -2048 ≤ v) (hhigh : v ≤ 2047) : (average c (BitVec.ofInt 32 (v * c.nAvg))).toInt = v := by
  have hn := (filter_constraints hc).1
  have hsum : fits32 (v * c.nAvg) = true := by
    rw [fits32_iff]
    rcases hn with hn | hn <;> rw [hn] <;> omega
  have hfits : fits32 v = true := (fits32_iff _).mpr ⟨by omega, by omega⟩
  have hn0 : (c.nAvg : Int) ≠ 0 := by omega
  rw [average, hm, noiseMask_zero, toInt_ofInt_of_fits32 hsum, tdiv_eq_int_tdiv, Int.mul_tdiv_cancel _ hn0,
    toInt_ofInt_of_fits32 hfits]

/-- Settles O28. -/
theorem averageStaysInTheSampleRange : Obligations.AverageStaysInTheSampleRange :=
  fun _ hc => ⟨fun hm _ hlow hhigh => average_of_equal_samples hc hm hlow hhigh,
    fun _ hlow hhigh => sampleRange_average hc hlow hhigh⟩

/-! ### UPDV and UPDD (R221 to R224) -/

theorem updateVelocity_of_fits {s : State} (h : fits32 (integrate s.cfg s.acc s.vel) = true) :
    updateVelocity s = { s with vel := BitVec.ofInt 32 (integrate s.cfg s.acc s.vel) } :=
  if_pos h

theorem updateVelocity_of_overflow {s : State} (h : fits32 (integrate s.cfg s.acc s.vel) = false) :
    updateVelocity s = raise .iovf (encode .updv) s :=
  if_neg (Bool.eq_false_iff.mp h)

theorem updateDistance_of_fits {s : State} (h : fits32 (integrate s.cfg s.vel s.dist) = true) :
    updateDistance s = { s with dist := BitVec.ofInt 32 (integrate s.cfg s.vel s.dist) } :=
  if_pos h

theorem updateDistance_of_overflow {s : State} (h : fits32 (integrate s.cfg s.vel s.dist) = false) :
    updateDistance s = raise .iovf (encode .updd) s :=
  if_neg (Bool.eq_false_iff.mp h)

theorem integrate_eq_int_tdiv (c : Config) (rate prev : Word) :
    integrate c rate prev = prev.toInt + (rate.toInt * (c.dt : Int)).tdiv c.scale := by
  rw [integrate, tdiv_eq_int_tdiv]

theorem fits32_eq_false_iff (v : Int) : fits32 v = false ↔ v < -2 ^ 31 ∨ 2 ^ 31 - 1 < v := by
  rw [← Bool.not_eq_true, fits32_iff]
  omega

/-- Settles O29: the accepted command is `updateVelocity`, by the range of the exact result. -/
theorem updvUpdatesVelocity : Obligations.UpdvUpdatesVelocity := by
  intro s hacc
  have ⟨_, hf, _⟩ := hacc
  simp only [exec_updv_accepted hacc, ← integrate_eq_int_tdiv, ← fits32_iff, ← fits32_eq_false_iff]
  refine ⟨fun hfits => by rw [updateVelocity_of_fits hfits], fun hover => ?_⟩
  rw [updateVelocity_of_overflow hover, raise_of_no_fault hf]
  rfl

/-- Settles O30: the accepted command is `updateDistance`, by the range of the exact result. -/
theorem upddUpdatesDistance : Obligations.UpddUpdatesDistance := by
  intro s hacc
  have ⟨_, hf, _⟩ := hacc
  simp only [exec_updd_accepted hacc, ← integrate_eq_int_tdiv, ← fits32_iff, ← fits32_eq_false_iff]
  refine ⟨fun hfits => by rw [updateDistance_of_fits hfits], fun hover => ?_⟩
  rw [updateDistance_of_overflow hover, raise_of_no_fault hf]
  rfl

end Sys2Proof.Machine
end

section
/-! Proofs about the tick program's rows (spec/43_clf.md R245, R247). -/

namespace Sys2Proof.Machine

/-! ### A row that presents a command -/

/-- The tick program presents with no command in progress and no fault set; CLFOWN is for the host only (R112). -/
theorem accepting_of_tpc {s : State} (hb : s.btcStep = 0) (hf : s.fault = 0) (hw : s.tpc ≠ .wait) : s.accepting :=
  ⟨hb, hf, fun h => absurd h hw⟩

theorem raise_fault_ne_zero {s : State} (hf : s.fault = 0) (c : FaultCode) (info : Word) :
    (raise c info s).fault ≠ 0 := by
  rw [raise_fault, hf]
  cases c <;> decide

/-- A row whose command is not refused goes on in the same step. -/
theorem present_continues {w : Word} {i : Instr} {k : State → State} {s t : State} (hw : decode w = .ok i)
    (hx : exec i s = .next t) (hf : t.fault = 0) : present w k s = .next (k t) := by
  rw [present, acceptWord_of_ok hw, hx]
  simp only [hf, if_true]

/-- A refusal abandons the row (R247). -/
theorem present_refused {w : Word} {i : Instr} {k : State → State} {s : State} {c : FaultCode} {info : Word}
    (hw : decode w = .ok i) (hf : s.fault = 0) (hx : exec i s = .next (raise c info s)) :
    present w k s = .next (raise c info s) := by
  rw [present, acceptWord_of_ok hw, hx]
  simp only [if_neg (raise_fault_ne_zero hf c info)]

theorem exec_rdxyz_accepting {s : State} (h : s.accepting) :
    exec .rdxyz s = .next (transaction (encode .rdxyz) (loadSampleRead (readList s.cfg.params.regData0 7)) s) :=
  congrArg _ (accept_accepting h _ _)

section Ready
variable {s : State} (hb : s.btcStep = 0) (hf : s.fault = 0)
include hb hf

theorem tickRow_sclr (hw : s.tpc = .sclr) :
    tickRow s = .next { s with sum := 0, scnt := 0, srep := s.cfg.nAvg, tpc := .read } := by
  have hacc := accepting_of_tpc hb hf (by simp [hw])
  rw [tickRow, hw]
  exact present_continues (by decide) (exec_sclr_accepted hacc) hf

theorem tickRow_read (hw : s.tpc = .read) (hi : s.initDone = true) (hv : s.saValid = true) :
    tickRow s = .next { s with
      ulist := readList s.cfg.params.regData0 7, btcStep := 1, btcXyz := true, tpc := .acc } := by
  have hacc := accepting_of_tpc hb hf (by simp [hw])
  have hx := exec_rdxyz_accepting hacc
  rw [transaction_ready hi hv] at hx
  rw [tickRow, hw]
  exact present_continues (by decide) hx hf

theorem tickRow_read_before_initm (hw : s.tpc = .read) (hi : s.initDone = false) :
    tickRow s = .next (raise .noinit (encode .rdxyz) s) := by
  have hacc := accepting_of_tpc hb hf (by simp [hw])
  have hx := exec_rdxyz_accepting hacc
  rw [transaction_before_initm hi] at hx
  rw [tickRow, hw]
  exact present_refused (by decide) hf hx

theorem tickRow_read_before_setsa (hw : s.tpc = .read) (hi : s.initDone = true) (hv : s.saValid = false) :
    tickRow s = .next (raise .noaddr (encode .rdxyz) s) := by
  have hacc := accepting_of_tpc hb hf (by simp [hw])
  have hx := exec_rdxyz_accepting hacc
  rw [transaction_before_setsa hi hv] at hx
  rw [tickRow, hw]
  exact present_refused (by decide) hf hx

theorem tickRow_acc (hw : s.tpc = .acc) (hroom : s.scnt.toNat < s.cfg.nAvg) :
    tickRow s = .next { s with
      sum := s.sum + driveSample s, scnt := s.scnt + 1, srep := s.srep - 1
      tpc := if 0 < s.srep - 1 then .read else .avg } := by
  have hx := exec_sacc_accepted (accepting_of_tpc hb hf (by simp [hw]))
  rw [accumulate_of_room hroom] at hx
  rw [tickRow, hw]
  exact present_continues (by decide) hx hf

theorem tickRow_acc_full (hw : s.tpc = .acc) (hfull : s.cfg.nAvg ≤ s.scnt.toNat) :
    tickRow s = .next (raise .badseq (encode .sacc) s) := by
  have hx := exec_sacc_accepted (accepting_of_tpc hb hf (by simp [hw]))
  rw [accumulate_of_full hfull] at hx
  rw [tickRow, hw]
  exact present_refused (by decide) hf hx

theorem tickRow_avg (hw : s.tpc = .avg) (hfull : s.scnt.toNat = s.cfg.nAvg) :
    tickRow s = .next { s with acc := average s.cfg s.sum, tpc := .updv } := by
  have hx := exec_savg_accepted (accepting_of_tpc hb hf (by simp [hw]))
  rw [deliverAverage_of_full hfull] at hx
  rw [tickRow, hw]
  exact present_continues (by decide) hx hf

theorem tickRow_avg_not_full (hw : s.tpc = .avg) (hnot : s.scnt.toNat ≠ s.cfg.nAvg) :
    tickRow s = .next (raise .badseq (encode .savg) s) := by
  have hx := exec_savg_accepted (accepting_of_tpc hb hf (by simp [hw]))
  rw [deliverAverage_of_not_full hnot] at hx
  rw [tickRow, hw]
  exact present_refused (by decide) hf hx

theorem tickRow_updv (hw : s.tpc = .updv) (hfits : fits32 (integrate s.cfg s.acc s.vel) = true) :
    tickRow s = .next { s with vel := BitVec.ofInt 32 (integrate s.cfg s.acc s.vel), tpc := .updd } := by
  have hx := exec_updv_accepted (accepting_of_tpc hb hf (by simp [hw]))
  rw [updateVelocity_of_fits hfits] at hx
  rw [tickRow, hw]
  exact present_continues (by decide) hx hf

theorem tickRow_updv_overflow (hw : s.tpc = .updv) (hover : fits32 (integrate s.cfg s.acc s.vel) = false) :
    tickRow s = .next (raise .iovf (encode .updv) s) := by
  have hx := exec_updv_accepted (accepting_of_tpc hb hf (by simp [hw]))
  rw [updateVelocity_of_overflow hover] at hx
  rw [tickRow, hw]
  exact present_refused (by decide) hf hx

theorem tickRow_updd (hw : s.tpc = .updd) (hfits : fits32 (integrate s.cfg s.vel s.dist) = true) :
    tickRow s = .next { s with dist := BitVec.ofInt 32 (integrate s.cfg s.vel s.dist), tpc := .phev } := by
  have hx := exec_updd_accepted (accepting_of_tpc hb hf (by simp [hw]))
  rw [updateDistance_of_fits hfits] at hx
  rw [tickRow, hw]
  exact present_continues (by decide) hx hf

theorem tickRow_updd_overflow (hw : s.tpc = .updd) (hover : fits32 (integrate s.cfg s.vel s.dist) = false) :
    tickRow s = .next (raise .iovf (encode .updd) s) := by
  have hx := exec_updd_accepted (accepting_of_tpc hb hf (by simp [hw]))
  rw [updateDistance_of_overflow hover] at hx
  rw [tickRow, hw]
  exact present_refused (by decide) hf hx

end Ready

/-- Settles O36: the sequencer's step is the row's, in its accepted and its refused form. -/
theorem tickProgramRowsDoWhatTheTableSays : Obligations.TickProgramRowsDoWhatTheTableSays := by
  intro s hb hf
  have refused (c : FaultCode) (info : Word) (h : tickRow s = .next (raise c info s)) :
      tickRow s = .next (s.refusedWith c.bit info) := by rw [h, raise_of_no_fault hf]
  rw [sbmcStep_of_ready hb hf]
  exact ⟨tickRow_sclr hb hf, tickRow_read hb hf,
    fun hw hi => refused .noinit _ (tickRow_read_before_initm hb hf hw hi),
    fun hw hi hv => refused .noaddr _ (tickRow_read_before_setsa hb hf hw hi hv),
    tickRow_acc hb hf, tickRow_avg hb hf, tickRow_updv hb hf,
    fun hw hover => refused .iovf _ (tickRow_updv_overflow hb hf hw hover),
    tickRow_updd hb hf,
    fun hw hover => refused .iovf _ (tickRow_updd_overflow hb hf hw hover)⟩

end Sys2Proof.Machine
end

section
/-! What one step of any agent can do (spec/00_scope.md R11), said once. -/

namespace Sys2Proof.Machine

/-! ### The SBMC sequencer -/

theorem row_tickStart {s : State} (h : s.tickStartEnabled = true) : Row s (tickStart s) := by
  by_cases h0 : s.dwell = 0
  · exact tickStart_of_no_dwell h0 ▸ .samples h h0
  · by_cases h1 : s.dwell = 1
    · exact tickStart_of_last_dwell h1 ▸ .dwellEnds h h1
    · exact tickStart_of_dwell h0 h1 ▸ .dwells h h0 h1

theorem row_emitNext {s : State} (hw : s.tpc = .emit) : Row s (emitNext s) := by
  rcases emitNext_cases s with ⟨hq, e⟩ | ⟨c, rest, hq, e⟩ <;> rw [e]
  · exact .ended hw hq
  · exact .emitted c rest hw hq

theorem row_of_tickRow {s t : State} (hb : s.btcStep = 0) (hf : s.fault = 0) (h : tickRow s = .next t) : Row s t := by
  have row {u : State} (he : tickRow s = .next u) (hr : Row s u) : Row s t := by
    rw [he] at h
    injection h with h
    exact h ▸ hr
  have refused {c : FaultCode} {info : Word} (hw : s.tpc.sampling = true) (he : tickRow s = .next (raise c info s)) :
      Row s t := row he (.refused c info hw)
  cases hw : s.tpc with
  | wait =>
    refine row (by rw [tickRow, hw]) ?_
    split
    · exact row_tickStart ‹_›
    · exact .rests
  | sclr => exact row (tickRow_sclr hb hf hw) (.cleared hw)
  | read =>
    cases hi : s.initDone with
    | false => exact refused (by rw [hw]; rfl) (tickRow_read_before_initm hb hf hw hi)
    | true =>
      cases hv : s.saValid with
      | false => exact refused (by rw [hw]; rfl) (tickRow_read_before_setsa hb hf hw hi hv)
      | true => exact row (tickRow_read hb hf hw hi hv) (.loaded _ hw (commandList_readList _ 7))
  | acc =>
    rcases accumulate_cases s with ⟨hc, -⟩ | ⟨hc, -⟩
    · exact refused (by rw [hw]; rfl) (tickRow_acc_full hb hf hw hc)
    · exact row (tickRow_acc hb hf hw hc) (.accumulated hw hc)
  | avg =>
    rcases deliverAverage_cases s with ⟨hc, -⟩ | ⟨hc, -⟩
    · exact refused (by rw [hw]; rfl) (tickRow_avg_not_full hb hf hw hc)
    · exact row (tickRow_avg hb hf hw hc) (.averaged _ hw)
  | updv =>
    rcases updateVelocity_cases s with ⟨hc, -⟩ | ⟨hc, -⟩
    · exact row (tickRow_updv hb hf hw hc) (.velocity _ hw)
    · exact refused (by rw [hw]; rfl) (tickRow_updv_overflow hb hf hw hc)
  | updd =>
    rcases updateDistance_cases s with ⟨hc, -⟩ | ⟨hc, -⟩
    · exact row (tickRow_updd hb hf hw hc) (.distance _ hw)
    · exact refused (by rw [hw]; rfl) (tickRow_updd_overflow hb hf hw hc)
  | phev =>
    rw [tickRow, hw] at h
    cases hp : phev s with
    | next u =>
      rw [hp] at h
      injection h with h
      exact h ▸ .evaluated hw (phaseRule_of_phev hp)
    | fault r => rw [hp] at h; cases h
    | refused r => rw [hp] at h; cases h
  | emit =>
    refine row (by rw [tickRow, hw]) ?_
    split
    · exact .rests
    · exact row_emitNext hw

/-! ### Any agent -/

/-- All that performing an event can do. -/
inductive Performed (s : State) : Event → State → Prop where
  | rests (ev : Event) : Performed s ev s
  | served {r : HostReq} {rest : List HostReq} {t : State} : s.hostq = r :: rest → s.idle = true →
      Accessed { s with hostq := rest } t → Performed s .host t
  | micro (u : MicroOp) : s.currentOp = some u → u.enabled s.eng = true → Performed s .sbmc (advance (u.effect s))
  | row {t : State} : s.btcStep = 0 → s.fault = 0 → Row s t → Performed s .sbmc t
  | engine : Performed s .engine (engineStep s)
  | engineSets (e : Eng) (w : List WireEvent) : Performed s (.engineSets e w) (engineSets e w s)
  | slaveSets (a v : Byte) : Performed s (.slaveSets a v) (slaveSets a v s)
  | otx : Performed s .otx (otxDone s)
  | ticked : s.run = true → s.phase ≠ .stopped → s.fault = 0 →
      Performed s .tick { s with tickPend := true, tickOvr := s.tickOvr || s.tickPend }
  | reset : Performed s .rst (resetEvent s)

theorem performed_tickArrive (s : State) : Performed s .tick (tickArrive s) := by
  unfold tickArrive
  split
  · exact .rests _
  · rename_i hen
    simp only [not_or, Bool.not_eq_false, ne_eq, not_not] at hen
    obtain ⟨hr, hp, hf⟩ := hen
    have hticked := Performed.ticked hr hp hf
    cases hpend : s.tickPend
    · simpa [hpend] using hticked
    · rw [if_pos rfl]
      convert hticked using 1
      simp [hpend]

theorem performed_of_hostServe {s t : State} (h : hostServe s = .next t) : Performed s .host t := by
  rcases hostServe_cases s with ⟨-, e⟩ | ⟨-, e⟩ | ⟨r, rest, hq, hi, e⟩ <;> rw [e] at h
  · injection h with h
    exact h ▸ .rests _
  · injection h with h
    exact h ▸ .rests _
  · exact .served hq hi (accessed_of_hostAccess h)

theorem performed_microStep (s : State) : Performed s .sbmc (microStep s) := by
  rcases microStep_cases s with ⟨-, e⟩ | ⟨-, -, -, e⟩ | ⟨u, hu, he, e⟩ <;> rw [e]
  · exact .rests _
  · exact .rests _
  · exact .micro u hu he

theorem performed_of_sbmcStep {s t : State} (h : sbmcStep s = .next t) : Performed s .sbmc t := by
  rcases sbmcStep_cases s with ⟨-, e⟩ | ⟨-, -, e⟩ | ⟨hb, hf, e⟩ <;> rw [e] at h
  · injection h with h
    exact h ▸ performed_microStep s
  · injection h with h
    exact h ▸ .rests _
  · exact .row hb hf (row_of_tickRow hb hf h)

theorem performed_of_perform {ev : Event} {s t : State} (h : perform ev s = .next t) : Performed s ev t := by
  cases ev with
  | host => exact performed_of_hostServe h
  | sbmc => exact performed_of_sbmcStep h
  | engine => injection h with h; exact h ▸ .engine
  | engineSets e w => injection h with h; exact h ▸ .engineSets e w
  | slaveSets a v => injection h with h; exact h ▸ .slaveSets a v
  | otx => injection h with h; exact h ▸ .otx
  | tick => injection h with h; exact h ▸ performed_tickArrive s
  | rst => injection h with h; exact h ▸ .reset

/-- All that a step can do: its event, on the state with the event taken out. -/
theorem performed_of_step {s t : State} (h : step s = .next t) : Performed s.eventTaken s.nextEvent t :=
  performed_of_perform h

end Sys2Proof.Machine
end

section
/-! What every step leaves unchanged: the build and the slave, the frozen block (spec/60_exceptions.md R281), AUTO mode
(spec/43_clf.md R242), the Stopped machine (R254), and the command in progress (spec/40_btc_commands.md R140 to
R144). -/

namespace Sys2Proof.Machine

/-! ### The block, apart from what stands around it -/

/-- `t` is `s` but for the engine, the slave, OTX, the wire, the port's read data and the pending inputs. -/
def SameBlock (s t : State) : Prop :=
  t = { s with
    eng := t.eng, mode := t.mode, slv := t.slv, otx := t.otx, wire := t.wire
    hrdata := t.hrdata, hostq := t.hostq, sched := t.sched }

theorem sameBlock_engineStep (s : State) : SameBlock s (engineStep s) := by
  rcases engineStep_cases s with ⟨-, e⟩ | ⟨-, -, -, e⟩ | ⟨-, -, e⟩ | ⟨-, -, -, -, e⟩ | ⟨-, -, -, -, e⟩ | ⟨-, -, e⟩ <;>
    rw [e]
  · rfl
  · unfold engStartW; split <;> rfl
  · rfl
  · rfl
  · rfl
  · unfold engRx; split <;> rfl

theorem btcStep_ne_zero_of_currentOp {s : State} {u : MicroOp} (h : s.currentOp = some u) : s.btcStep ≠ 0 := by
  intro h0
  simp [State.currentOp, h0] at h

/-! ### The build and the slave -/

theorem presented_cfg {s t : State} (h : Presented s t) : t.cfg = s.cfg := by
  cases h <;> rfl

theorem presented_slv {s t : State} (h : Presented s t) : t.slv = s.slv := by
  cases h <;> rfl

theorem accessed_cfg {s t : State} (h : Accessed s t) : t.cfg = s.cfg := by
  cases h with
  | presented hp => exact presented_cfg hp
  | _ => rfl

theorem accessed_slv {s t : State} (h : Accessed s t) : t.slv = s.slv := by
  cases h with
  | presented hp => exact presented_slv hp
  | _ => rfl

theorem row_cfg {s t : State} (h : Row s t) : t.cfg = s.cfg := by
  cases h with
  | evaluated _ hp => cases hp <;> rfl
  | _ => rfl

theorem row_slv {s t : State} (h : Row s t) : t.slv = s.slv := by
  cases h with
  | evaluated _ hp => cases hp <;> rfl
  | _ => rfl

/-- Moving on changes the BTC's position and list, and at the completion of RDXYZ the sample registers and RES. -/
theorem advance_frame (s : State) :
    advance s = { s with
      ulist := (advance s).ulist, btcStep := (advance s).btcStep, btcXyz := (advance s).btcXyz
      sx := (advance s).sx, sy := (advance s).sy, sz := (advance s).sz, sst := (advance s).sst
      res := (advance s).res } := by
  rcases advance_cases s with ⟨-, e⟩ | ⟨-, -, e⟩ | ⟨-, -, e⟩ <;> rw [e] <;> rfl

theorem advance_cfg (s : State) : (advance s).cfg = s.cfg := by rw [advance_frame]
theorem advance_slv (s : State) : (advance s).slv = s.slv := by rw [advance_frame]
theorem advance_fault (s : State) : (advance s).fault = s.fault := by rw [advance_frame]
theorem advance_finfo (s : State) : (advance s).finfo = s.finfo := by rw [advance_frame]
theorem advance_act (s : State) : (advance s).act = s.act := by rw [advance_frame]
theorem advance_run (s : State) : (advance s).run = s.run := by rw [advance_frame]

theorem effect_finfo (u : MicroOp) (s : State) : (u.effect s).finfo = s.finfo := by cases u <;> rfl

theorem performed_cfg {s t : State} {ev : Event} (h : Performed s ev t) : t.cfg = s.cfg := by
  cases h with
  | served _ _ ha => exact (accessed_cfg ha :)
  | micro u => rw [advance_cfg, effect_cfg]
  | row _ _ hr => exact row_cfg hr
  | engine => rw [sameBlock_engineStep s]
  | _ => rfl

/-- No agent but the engine and the slave's environment writes the slave. -/
theorem performed_slv {s t : State} {ev : Event} (h : Performed s ev t) (hne : ev ≠ .engine)
    (hns : ∀ a v, ev ≠ .slaveSets a v) : t.slv = s.slv := by
  cases h with
  | served _ _ ha => exact (accessed_slv ha :)
  | micro u => rw [advance_slv, effect_slv]
  | row _ _ hr => exact row_slv hr
  | engine => exact absurd rfl hne
  | slaveSets a v => exact absurd rfl (hns a v)
  | _ => rfl

/-- Settles O56. -/
theorem slaveChangesOnlyByEngineAndEnvironment : Obligations.SlaveChangesOnlyByEngineAndEnvironment :=
  fun _ _ h hne hns => (performed_slv (performed_of_step h) hne hns :)

/-- A pointer of 8 bits names one of the 256 registers (R91). -/
theorem slaveWrite_wf {v : Slave} (h : v.sreg.wf = true) (b : Byte) : (slaveWrite b v).sreg.wf = true := by
  unfold slaveWrite
  split
  · exact h
  · exact Memory.write_wf _ _ _ v.ptr.isLt h

/-- The engine's step keeps the slave's memory but for the one write of E-TX. -/
theorem engineStep_wf {s : State} (h : s.slv.sreg.wf = true) : (engineStep s).slv.sreg.wf = true := by
  rcases engineStep_cases s with ⟨-, e⟩ | ⟨-, -, -, e⟩ | ⟨-, -, e⟩ | ⟨-, -, -, -, e⟩ | ⟨-, -, -, -, e⟩ | ⟨-, -, e⟩ <;>
    rw [e]
  · exact h
  · unfold engStartW; split <;> exact h
  · exact slaveWrite_wf h _
  · exact h
  · exact h
  · unfold engRx; split <;> exact h

theorem performed_wf {s t : State} {ev : Event} (h : Performed s ev t) (hwf : s.slv.sreg.wf = true) :
    t.slv.sreg.wf = true := by
  cases h with
  | served _ _ ha => rw [accessed_slv ha]; exact hwf
  | micro u => rw [advance_slv, effect_slv]; exact hwf
  | row _ _ hr => rw [row_slv hr]; exact hwf
  | engine => exact engineStep_wf hwf
  | slaveSets a v => exact Memory.write_wf _ _ _ a.isLt hwf
  | _ => exact hwf

/-- Settles O60: the slave's memory is written by E-TX and by the slave's environment, each inside the 256 registers. -/
theorem stepKeepsTheMemoryCanonical : Obligations.StepKeepsTheMemoryCanonical := by
  intro s t hwf h
  have hp := performed_of_step h
  exact ⟨performed_wf hp hwf, (performed_cfg hp :)⟩

/-! ### AUTO mode is left only by reset -/

theorem accessed_run {s t : State} (h : Accessed s t) (hr : s.run = true) : t.run = true := by
  cases h with
  | presented hp =>
    cases hp with
    | started => rfl
    | _ => exact hr
  | _ => exact hr

theorem row_run {s t : State} (h : Row s t) : t.run = s.run := by
  cases h with
  | evaluated _ hp => cases hp <;> rfl
  | _ => rfl

theorem performed_run {s t : State} {ev : Event} (h : Performed s ev t) (hne : ev ≠ .rst) (hr : s.run = true) :
    t.run = true := by
  cases h with
  | served _ _ ha => exact accessed_run ha hr
  | micro u => rw [advance_run, effect_run, hr]
  | row _ _ hrow => rw [row_run hrow, hr]
  | engine => rw [sameBlock_engineStep s]; exact hr
  | reset => exact absurd rfl hne
  | _ => exact hr

/-- Settles O41. -/
theorem autoModeIsLeftOnlyByReset : Obligations.AutoModeIsLeftOnlyByReset :=
  fun _ _ hr h hne => performed_run (performed_of_step h) hne hr

/-! ### Once FAULT is not 0 (R281) -/

theorem presented_of_fault {s t : State} (h : Presented s t) (hf : s.fault ≠ 0) : t = s := by
  cases h with
  | discarded => rfl
  | refused _ _ _ h0 => exact absurd h0 hf
  | loaded _ _ ha => exact absurd (no_fault_of_accepting ha) hf
  | decoded _ ha => exact absurd (no_fault_of_accepting ha) hf
  | cleared ha => exact absurd (no_fault_of_accepting ha) hf
  | accumulated ha => exact absurd (no_fault_of_accepting ha) hf
  | integrated _ _ _ ha => exact absurd (no_fault_of_accepting ha) hf
  | started ha => exact absurd (no_fault_of_accepting ha) hf

theorem accessed_of_fault {s t : State} (h : Accessed s t) (hf : s.fault ≠ 0) : SameBlock s t := by
  cases h with
  | answered => rfl
  | refused _ _ _ h0 => exact absurd h0 hf
  | stored _ _ _ _ h0 => exact absurd h0 hf
  | presented hp => rw [presented_of_fault hp hf]; rfl

/-- Once FAULT ≠ 0 there is no command in progress, no row of the tick program and no tick is taken, and a host access
can only set the port's read data. -/
theorem performed_of_fault {s t : State} {ev : Event} (h : Performed s ev t) (hb : s.btcStep = 0) (hf : s.fault ≠ 0)
    (hne : ev ≠ .rst) : SameBlock s t := by
  cases h with
  | served _ _ ha => exact (accessed_of_fault ha hf :)
  | micro u hu => exact absurd hb (btcStep_ne_zero_of_currentOp hu)
  | row _ h0 => exact absurd h0 hf
  | engine => exact sameBlock_engineStep s
  | ticked _ _ h0 => exact absurd h0 hf
  | reset => exact absurd rfl hne
  | _ => rfl

/-- Settles O50. -/
theorem faultFreezesTheBlock : Obligations.FaultFreezesTheBlock :=
  fun _ _ hinv hf h hne => (performed_of_fault (performed_of_step h) (hinv.btcAtRest hf) hf hne :)

/-! ### Stopped is terminal (R254) -/

/-- What R254 says a step from an idle machine in Stopped keeps. -/
def StoppedKept (s t : State) : Prop :=
  t.idle = true ∧ t.run = true ∧ t.phase = .stopped ∧ t.act = s.act ∧ t.out = s.out ∧
    t.vel = s.vel ∧ t.dist = s.dist ∧ t.acc = s.acc

theorem stoppedKept_of_sameBlock {s t : State} (h : SameBlock s t) (hi : s.idle = true) (hr : s.run = true)
    (hp : s.phase = .stopped) : StoppedKept s t := by
  rw [h]
  exact ⟨hi, hr, hp, rfl, rfl, rfl, rfl, rfl⟩

theorem not_accepting_of_auto {s : State} (hi : s.idle = true) (hr : s.run = true) : ¬ s.accepting := by
  obtain ⟨-, hw⟩ := (idle_iff s).mp hi
  intro ha
  rw [host_mode_of_accepting ha hw] at hr
  cases hr

/-- In AUTO mode no host access is more than a read or a refusal. -/
theorem accessed_of_auto {s t : State} (h : Accessed s t) (hi : s.idle = true) (hr : s.run = true) :
    SameBlock s t ∨ ∃ c info v, s.fault = 0 ∧ t = { raise c info s with hrdata := v } := by
  have hacc := not_accepting_of_auto hi hr
  cases h with
  | answered => exact .inl rfl
  | refused c info v hf => exact .inr ⟨c, info, v, hf, rfl⟩
  | stored _ _ _ _ _ h0 => rw [hr] at h0; cases h0
  | presented hp =>
    cases hp with
    | discarded => exact .inl rfl
    | refused c info _ hf => exact .inr ⟨c, info, s.hrdata, hf, rfl⟩
    | loaded _ _ ha => exact absurd ha hacc
    | decoded _ ha => exact absurd ha hacc
    | cleared ha => exact absurd ha hacc
    | accumulated ha => exact absurd ha hacc
    | integrated _ _ _ ha => exact absurd ha hacc
    | started ha => exact absurd ha hacc

theorem tickStartEnabled_of_stopped {s : State} (hp : s.phase = .stopped) : s.tickStartEnabled ≠ true := by
  rw [Ne, tickStartEnabled_iff]
  exact fun ⟨_, _, hne, _⟩ => hne hp

/-- In Stopped the tick program has no row at its first position. -/
theorem row_of_stopped {s t : State} (h : Row s t) (hw : s.tpc = .wait) (hp : s.phase = .stopped) : t = s := by
  have hen := tickStartEnabled_of_stopped hp
  cases h with
  | rests => rfl
  | samples h0 => exact absurd h0 hen
  | dwells h0 => exact absurd h0 hen
  | dwellEnds h0 => exact absurd h0 hen
  | refused _ _ hs => rw [hw] at hs; cases hs
  | cleared h0 => rw [hw] at h0; cases h0
  | loaded _ h0 => rw [hw] at h0; cases h0
  | accumulated h0 => rw [hw] at h0; cases h0
  | averaged _ h0 => rw [hw] at h0; cases h0
  | velocity _ h0 => rw [hw] at h0; cases h0
  | distance _ h0 => rw [hw] at h0; cases h0
  | evaluated h0 => rw [hw] at h0; cases h0
  | emitted _ _ h0 => rw [hw] at h0; cases h0
  | ended h0 => rw [hw] at h0; cases h0

/-- At rest in Stopped and AUTO mode no row of the tick program and no tick is taken, and a host access is a read or a
refusal. -/
theorem performed_of_stopped {s t : State} {ev : Event} (h : Performed s ev t) (hi : s.idle = true) (hr : s.run = true)
    (hp : s.phase = .stopped) (hne : ev ≠ .rst) : StoppedKept s t := by
  obtain ⟨hb, hw⟩ := (idle_iff s).mp hi
  have same (hsame : SameBlock s t) : StoppedKept s t := stoppedKept_of_sameBlock hsame hi hr hp
  cases h with
  | served _ _ ha =>
    rcases accessed_of_auto ha hi hr with hsame | ⟨c, info, v, -, rfl⟩
    · exact same hsame
    · exact ⟨(idle_iff _).mpr ⟨hb, rfl⟩, hr, hp, rfl, rfl, rfl, rfl, rfl⟩
  | micro u hu => exact absurd hb (btcStep_ne_zero_of_currentOp hu)
  | row _ _ hrow =>
    obtain rfl := row_of_stopped hrow hw hp
    exact same rfl
  | engine => exact same (sameBlock_engineStep s)
  | ticked _ hp' => exact absurd hp hp'
  | reset => exact absurd rfl hne
  | _ => exact same rfl

/-- Settles O42. -/
theorem stoppedIsTerminal : Obligations.StoppedIsTerminal :=
  fun _ _ hi hr hp h hne => (performed_of_stopped (performed_of_step h) hi hr hp hne :)

/-! ### The command in progress -/

/-- What a step that is not the BTC's leaves of a command in progress. -/
def CommandKept (s t : State) : Prop :=
  t.fault = s.fault ∧ t.finfo = s.finfo ∧ t.act = s.act ∧ t.ulist = s.ulist ∧ t.btcStep = s.btcStep

/-- While a command is in progress the host is held and the tick program waits: a step is a micro-operation, or leaves
the command alone. -/
theorem performed_of_busy {s t : State} {ev : Event} (h : Performed s ev t) (hb : s.btcStep ≠ 0) (hne : ev ≠ .rst) :
    CommandKept s t ∨ ∃ u, s.currentOp = some u ∧ t = advance (u.effect s) := by
  cases h with
  | served _ hi => exact absurd ((idle_iff s).mp hi).1 hb
  | micro u hu => exact .inr ⟨u, hu, rfl⟩
  | row h0 => exact absurd h0 hb
  | engine =>
    refine .inl ?_
    rw [sameBlock_engineStep s]
    exact ⟨rfl, rfl, rfl, rfl, rfl⟩
  | reset => exact absurd rfl hne
  | _ => exact .inl ⟨rfl, rfl, rfl, rfl, rfl⟩

/-- Settles O22: no micro-operation writes FAULT or FINFO. -/
theorem transactionInProgressRaisesNoFault : Obligations.TransactionInProgressRaisesNoFault := by
  intro s t hb h hne
  rcases performed_of_busy (performed_of_step h) hb hne with ⟨hf, hi, -⟩ | ⟨u, -, rfl⟩
  · exact ⟨hf, hi⟩
  · rw [advance_fault, advance_finfo, effect_fault, effect_finfo]
    exact ⟨rfl, rfl⟩

/-- The current micro-operation is the last of the first STEP. -/
theorem take_btcStep {s : State} {u : MicroOp} (hu : s.currentOp = some u) :
    s.ulist.take s.btcStep = s.ulist.take (s.btcStep - 1) ++ [u] := by
  have hb := btcStep_ne_zero_of_currentOp hu
  have hget : s.ulist[s.btcStep - 1]? = some u := by
    rw [State.currentOp, if_neg hb] at hu
    exact hu
  have hsucc : s.btcStep = s.btcStep - 1 + 1 := by omega
  conv_lhs => rw [hsucc, List.take_add_one, hget]
  rfl

/-- Executing the current micro-operation appends to ACT what the list has at its place. -/
theorem actGrownBy_effect {s : State} {u : MicroOp} {before : List Action} (hu : s.currentOp = some u)
    (h : ActGrownBy before s.ulist (s.btcStep - 1) s) : ActGrownBy before s.ulist s.btcStep (u.effect s) := by
  obtain ⟨acts, hact, hops⟩ := h
  rw [ActGrownBy, take_btcStep hu, List.filter_append, ← hops]
  rcases effect_act u s with ⟨hun, hsame⟩ | ⟨htr, a, rfl, happ⟩
  · exact ⟨acts, by rw [hsame, hact], by simp [hun]⟩
  · exact ⟨acts ++ [a], by rw [happ, hact, List.append_assoc], by simp [htr]⟩

/-- Moving on leaves ACT. -/
theorem actGrownBy_advance {s : State} {before : List Action} {l : List MicroOp} {n : Nat}
    (h : ActGrownBy before l n s) : ActGrownBy before l n (advance s) := by
  obtain ⟨acts, hact, hops⟩ := h
  exact ⟨acts, by rw [advance_act, hact], hops⟩

/-- Where the BTC stands after a micro-operation. -/
theorem advance_position (s : State) :
    (s.btcStep < s.ulist.length ∧ (advance s).btcStep = s.btcStep + 1 ∧ (advance s).ulist = s.ulist) ∨
    (s.ulist.length ≤ s.btcStep ∧ (advance s).btcStep = 0 ∧ (advance s).ulist = []) := by
  rcases advance_cases s with ⟨hlt, e⟩ | ⟨hend, -, e⟩ | ⟨hend, -, e⟩ <;> rw [e]
  · exact .inl ⟨hlt, rfl, rfl⟩
  · exact .inr ⟨hend, rfl, rfl⟩
  · exact .inr ⟨hend, rfl, rfl⟩

/-- Settles O21: a micro-operation appends its own action, and either moves to the next position or ends the list. -/
theorem actFollowsTheCommandList : Obligations.ActFollowsTheCommandList := by
  intro s t before hb hle hgrown h hne
  rcases performed_of_busy (performed_of_step h) hb hne with ⟨-, -, hact, hlist, hstep⟩ | ⟨u, hu, rfl⟩
  · obtain ⟨acts, hacts, hops⟩ := hgrown
    rw [hstep, hlist]
    exact .inl ⟨hb, rfl, hle, acts, hact.trans hacts, hops⟩
  · have hdone : ActGrownBy before s.ulist s.btcStep (advance (u.effect s.eventTaken)) :=
      actGrownBy_advance (actGrownBy_effect (s := s.eventTaken) hu hgrown)
    have hpos := advance_position (u.effect s.eventTaken)
    rw [effect_ulist, effect_btcStep, eventTaken_ulist, eventTaken_btcStep] at hpos
    rcases hpos with ⟨hlt, hstep, hlist⟩ | ⟨hend, hstep, hlist⟩
    · rw [hstep, hlist]
      exact .inl ⟨Nat.succ_ne_zero _, rfl, hlt, hdone⟩
    · rw [Nat.le_antisymm hend hle]
      exact .inr ⟨hstep, hlist, hdone⟩

end Sys2Proof.Machine
end

section
/-! Every step keeps the machine's invariant (spec/10_state.md sections 1 and 2, spec/43_clf.md sections 3 and 4,
spec/60_exceptions.md section 1), component by component. -/

namespace Sys2Proof.Machine

/-! ### The fields each component speaks of -/

section Frames
variable {s t : State}

theorem FaultInv.of_eq (h : FaultInv s) (hf : t.fault = s.fault) (hb : t.btcStep = s.btcStep) (hw : t.tpc = s.tpc) :
    FaultInv t := by
  obtain ⟨h1, h2, h3⟩ := h
  rw [← hf] at h1 h2 h3
  exact ⟨h1, hb ▸ h2, hw ▸ h3⟩

theorem BtcInv.of_eq (h : BtcInv s) (hl : t.ulist = s.ulist) (hb : t.btcStep = s.btcStep) (hx : t.btcXyz = s.btcXyz) :
    BtcInv t := by
  obtain ⟨h1, h2, h3⟩ := h
  rw [← hb, ← hl] at h1 h2
  rw [← hb, ← hx] at h3
  exact ⟨h1, h2, h3⟩

theorem SampleInv.of_eq (h : SampleInv s) (hx : t.sx = s.sx) (hy : t.sy = s.sy) (hz : t.sz = s.sz)
    (hs : t.sum = s.sum) (hn : t.scnt = s.scnt) (hc : t.cfg = s.cfg) : SampleInv t := by
  obtain ⟨h1, h2, h3, h4, h5, h6⟩ := h
  rw [← hx] at h1
  rw [← hy] at h2
  rw [← hz] at h3
  rw [← hn] at h4 h5 h6
  rw [← hc] at h4
  rw [← hs] at h5 h6
  exact ⟨h1, h2, h3, h4, h5, h6⟩

theorem CourseInv.of_eq (h : CourseInv s) (hr : t.run = s.run) (hp : t.phase = s.phase) (hm : t.ramp = s.ramp)
    (hd : t.dwell = s.dwell) (ht : t.tickPend = s.tickPend) (hc : t.cfg = s.cfg) : CourseInv t := by
  obtain ⟨h1, h2, h3, h4⟩ := h
  rw [← hr, ← hp, ← hm, ← hd, ← ht] at h1
  rw [← hp, ← hm, ← hc] at h2 h3
  rw [← hd, ← hp] at h4
  exact ⟨h1, h2, h3, h4⟩

/-- The tick program's part, with the BTC's position apart: it counts only at T_ACC. -/
theorem TickInv.of_eq (h : TickInv s) (hw : t.tpc = s.tpc) (hr : t.run = s.run)
    (hb : t.tpc ≠ .wait → t.tpc ≠ .acc → t.btcStep = 0) (hq : t.emitq = s.emitq) (hs : t.srep = s.srep)
    (hn : t.scnt = s.scnt) (hc : t.cfg = s.cfg) (hp : t.phase = s.phase) (hd : t.dwell = s.dwell) : TickInv t := by
  obtain ⟨h1, -, h3, h4, h5, h6, h7, h8⟩ := h
  rw [← hw, ← hr] at h1
  rw [← hw, ← hq] at h3
  rw [← hq] at h4
  rw [← hw, ← hs, ← hn, ← hc] at h5
  rw [← hw, ← hs] at h6
  rw [← hw, ← hn, ← hc] at h7
  rw [← hw, ← hp, ← hd] at h8
  exact ⟨h1, hb, h3, h4, h5, h6, h7, h8⟩

/-- The invariant does not speak of what stands around the block. -/
theorem MachineInv.of_sameBlock (h : MachineInv s) (hs : SameBlock s t) : MachineInv t := by
  obtain ⟨hbuild, hfault, hbtc, hsamples, htick, hcourse⟩ := h
  rw [hs]
  exact ⟨hbuild, hfault.of_eq rfl rfl rfl, hbtc.of_eq rfl rfl rfl, hsamples.of_eq rfl rfl rfl rfl rfl rfl,
    htick.of_eq rfl rfl htick.btcOnlyAtAcc rfl rfl rfl rfl rfl rfl, hcourse.of_eq rfl rfl rfl rfl rfl rfl⟩

end Frames

theorem MachineInv.eventTaken {s : State} (h : MachineInv s) : MachineInv s.eventTaken := h.of_sameBlock rfl

/-! ### The build and the faults -/

/-- The constraints of R6 and R7 that the invariants use. -/
theorem build_constraints {c : Config} (h : c.wellFormed = true) :
    1 ≤ c.nAvg ∧ c.nAvg ≤ 8 ∧ 1 ≤ c.nRamp ∧ c.nRamp ≤ 255 := by
  simp only [Config.wellFormed, Bool.and_eq_true, Bool.or_eq_true, decide_eq_true_eq] at h
  omega

theorem one_le_nRamp {c : Config} (h : c.wellFormed = true) : 1 ≤ c.nRamp := by
  obtain ⟨-, -, hmin, -⟩ := build_constraints h
  exact hmin

theorem faultInv_of_no_fault {s : State} (h : s.fault = 0) : FaultInv s :=
  ⟨.inl h, fun hf => absurd h hf, fun hf => absurd h hf⟩

/-- A fault is raised only where none is set and no command is in progress. -/
theorem faultInv_raise {s : State} (hf : s.fault = 0) (hb : s.btcStep = 0) (c : FaultCode) (info : Word) :
    FaultInv (raise c info s) :=
  ⟨.inr ⟨c, by rw [raise_fault, hf]; exact BitVec.zero_or⟩, fun _ => hb, fun _ => rfl⟩

theorem faultInv_presented {s t : State} (h : Presented s t) (hs : FaultInv s) : FaultInv t := by
  cases h with
  | discarded => exact hs
  | refused c info hb hf => exact faultInv_raise hf hb c info
  | loaded _ _ ha | decoded _ ha | cleared ha | accumulated ha | integrated _ _ _ ha | started ha =>
    exact faultInv_of_no_fault (no_fault_of_accepting ha :)

theorem faultInv_accessed {s t : State} (h : Accessed s t) (hb : s.btcStep = 0) (hs : FaultInv s) : FaultInv t := by
  cases h with
  | answered => exact hs.of_eq rfl rfl rfl
  | refused c info v hf => exact (faultInv_raise hf hb c info).of_eq rfl rfl rfl
  | stored _ _ _ _ hf => exact faultInv_of_no_fault hf
  | presented hp => exact faultInv_presented hp hs

theorem faultInv_row {s t : State} (h : Row s t) (hb : s.btcStep = 0) (hf : s.fault = 0) : FaultInv t := by
  cases h with
  | refused c info => exact faultInv_raise hf hb c info
  | evaluated _ hp => exact faultInv_of_no_fault (by cases hp <;> exact hf)
  | _ => exact faultInv_of_no_fault hf

/-! ### The BTC -/

theorem btcInv_loaded {l : List MicroOp} (hl : l ≠ []) {s : State} (h1 : s.ulist = l) (h2 : s.btcStep = 1) :
    BtcInv s := by
  have hstep : s.btcStep ≠ 0 := by rw [h2]; exact Nat.one_ne_zero
  refine ⟨?_, ⟨fun h => absurd h hstep, fun h => absurd (h1.symm.trans h) hl⟩, fun h => absurd h hstep⟩
  rw [h1, h2]
  exact List.length_pos_of_ne_nil hl

theorem btcInv_presented {s t : State} (h : Presented s t) (hs : BtcInv s) : BtcInv t := by
  cases h with
  | loaded l xyz _ hl => exact btcInv_loaded hl.nonempty rfl rfl
  | _ => exact hs.of_eq rfl rfl rfl

theorem btcInv_accessed {s t : State} (h : Accessed s t) (hs : BtcInv s) : BtcInv t := by
  cases h with
  | presented hp => exact btcInv_presented hp hs
  | _ => exact hs.of_eq rfl rfl rfl

theorem btcInv_row {s t : State} (h : Row s t) (hs : BtcInv s) : BtcInv t := by
  cases h with
  | loaded l _ hl => exact btcInv_loaded hl.nonempty rfl rfl
  | evaluated _ hp => cases hp <;> exact hs.of_eq rfl rfl rfl
  | _ => exact hs.of_eq rfl rfl rfl

theorem btcInv_advance (s : State) : BtcInv (advance s) := by
  rcases advance_cases s with ⟨hlt, e⟩ | ⟨-, -, e⟩ | ⟨-, -, e⟩ <;> rw [e]
  · refine ⟨hlt, ⟨fun h => absurd h (Nat.succ_ne_zero _), fun h => ?_⟩, fun h => absurd h (Nat.succ_ne_zero _)⟩
    simp only at h
    simp [h] at hlt
  · exact ⟨Nat.zero_le _, Iff.intro (fun _ => rfl) fun _ => rfl, fun _ => rfl⟩
  · exact ⟨Nat.zero_le _, Iff.intro (fun _ => rfl) fun _ => rfl, fun _ => rfl⟩

/-! ### The samples -/

theorem SampleInv.driveSample {s : State} (h : SampleInv s) : sampleRange (driveSample s) := by
  unfold Machine.driveSample
  split
  · exact h.sx
  · exact h.sy
  · exact h.sz

theorem sampleInv_cleared {s t : State} (h : SampleInv s) (hx : t.sx = s.sx) (hy : t.sy = s.sy) (hz : t.sz = s.sz)
    (hs : t.sum = 0) (hn : t.scnt = 0) : SampleInv t :=
  ⟨hx ▸ h.sx, hy ▸ h.sy, hz ▸ h.sz, by rw [hn]; exact Nat.zero_le _, by rw [hs, hn]; decide, by rw [hs, hn]; decide⟩

/-- One more sample: with at most 8 of them the sum does not wrap. -/
theorem sampleInv_accumulated {s t : State} (h : SampleInv s) (hc : s.cfg.wellFormed = true)
    (hroom : s.scnt.toNat < s.cfg.nAvg) (hx : t.sx = s.sx) (hy : t.sy = s.sy) (hz : t.sz = s.sz)
    (hs : t.sum = s.sum + driveSample s) (hn : t.scnt = s.scnt + 1) (hcfg : t.cfg = s.cfg) : SampleInv t := by
  obtain ⟨-, hmax, -, -⟩ := build_constraints hc
  obtain ⟨hlow, hhigh⟩ := h.driveSample
  have hsumLow := h.sumLow
  have hsumHigh := h.sumHigh
  have hcount : t.scnt.toNat = s.scnt.toNat + 1 := by rw [hn]; bv_omega
  have hsum : t.sum.toInt = s.sum.toInt + (driveSample s).toInt := by
    rw [hs, BitVec.toInt_add, Int.bmod_eq_of_le] <;> omega
  refine ⟨hx ▸ h.sx, hy ▸ h.sy, hz ▸ h.sz, ?_, ?_, ?_⟩
  · rw [hcount, hcfg]; exact hroom
  · rw [hcount, hsum]; push_cast; omega
  · rw [hcount, hsum]; push_cast; omega

theorem sampleInv_presented {s t : State} (h : Presented s t) (hc : s.cfg.wellFormed = true) (hs : SampleInv s) :
    SampleInv t := by
  cases h with
  | cleared => exact sampleInv_cleared hs rfl rfl rfl rfl rfl
  | accumulated _ hroom => exact sampleInv_accumulated hs hc hroom rfl rfl rfl rfl rfl rfl
  | _ => exact hs.of_eq rfl rfl rfl rfl rfl rfl

theorem sampleInv_accessed {s t : State} (h : Accessed s t) (hc : s.cfg.wellFormed = true) (hs : SampleInv s) :
    SampleInv t := by
  cases h with
  | presented hp => exact sampleInv_presented hp hc hs
  | _ => exact hs.of_eq rfl rfl rfl rfl rfl rfl

theorem sampleInv_row {s t : State} (h : Row s t) (hc : s.cfg.wellFormed = true) (hs : SampleInv s) : SampleInv t := by
  cases h with
  | cleared => exact sampleInv_cleared hs rfl rfl rfl rfl rfl
  | accumulated _ hroom => exact sampleInv_accumulated hs hc hroom rfl rfl rfl rfl rfl rfl
  | evaluated _ hp => cases hp <;> exact hs.of_eq rfl rfl rfl rfl rfl rfl
  | _ => exact hs.of_eq rfl rfl rfl rfl rfl rfl

/-- The completion of RDXYZ writes decoded samples. -/
theorem sampleInv_advance {s : State} (h : SampleInv s) : SampleInv (advance s) := by
  rcases advance_cases s with ⟨-, e⟩ | ⟨-, -, e⟩ | ⟨-, -, e⟩ <;> rw [e]
  · exact h.of_eq rfl rfl rfl rfl rfl rfl
  · exact ⟨sampleRange_decodeSample _ _, sampleRange_decodeSample _ _, sampleRange_decodeSample _ _, h.count, h.sumLow,
      h.sumHigh⟩
  · exact h.of_eq rfl rfl rfl rfl rfl rfl

theorem sampleInv_effect {s : State} (h : SampleInv s) (u : MicroOp) : SampleInv (u.effect s) := by
  cases u <;> exact h.of_eq rfl rfl rfl rfl rfl rfl

/-! ### The course -/

theorem courseInv_started {s : State} (hc : s.cfg.wellFormed = true) : CourseInv (startCourse s) :=
  ⟨nofun, fun _ => one_le_nRamp hc, fun h => absurd rfl h, fun h => absurd rfl h⟩

theorem courseInv_presented {s t : State} (h : Presented s t) (hc : s.cfg.wellFormed = true) (hs : CourseInv s) :
    CourseInv t := by
  cases h with
  | started => exact courseInv_started hc
  | _ => exact hs.of_eq rfl rfl rfl rfl rfl rfl

theorem courseInv_accessed {s t : State} (h : Accessed s t) (hc : s.cfg.wellFormed = true) (hs : CourseInv s) :
    CourseInv t := by
  cases h with
  | presented hp => exact courseInv_presented hp hc hs
  | _ => exact hs.of_eq rfl rfl rfl rfl rfl rfl

/-- In AUTO mode the pending tick is free. -/
theorem courseInv_tickPend {s t : State} (hs : CourseInv s) (hr : s.run = true) (h1 : t.run = s.run)
    (h2 : t.phase = s.phase) (h3 : t.ramp = s.ramp) (h4 : t.dwell = s.dwell) (h5 : t.cfg = s.cfg) : CourseInv t := by
  obtain ⟨-, hramping, hramped, hdwelling⟩ := hs
  rw [← h2, ← h3, ← h5] at hramping hramped
  rw [← h2, ← h4] at hdwelling
  exact ⟨fun h => absurd h (by simp [h1, hr]), hramping, hramped, hdwelling⟩

/-- RAMP counts the ramp's commands without wrapping. -/
theorem ramp_succ_toNat {s : State} (hc : s.cfg.wellFormed = true) (hs : CourseInv s) (hp : s.phase = .accelerating) :
    (s.ramp + 1).toNat = s.ramp.toNat + 1 := by
  obtain ⟨-, -, -, hmax⟩ := build_constraints hc
  have hlt := hs.ramping hp
  bv_omega

theorem courseInv_evaluated {s t : State} (h : PhaseRule s t) (hc : s.cfg.wellFormed = true) (hr : s.run = true)
    (hd : s.dwell = 0) (hs : CourseInv s) : CourseInv { t with tpc := .emit } := by
  have hauto {P : Prop} (h : s.run = false) : P := absurd h (by simp [hr])
  have hramped {p : Phase} (hp : s.phase = p) (hne : p ≠ .accelerating) : s.ramp.toNat = s.cfg.nRamp :=
    hs.ramped (hp ▸ hne)
  cases h with
  | rests => exact hs.of_eq rfl rfl rfl rfl rfl rfl
  | ramps c hp =>
    have hlt := hs.ramping hp
    have hsucc := ramp_succ_toNat hc hs hp
    refine ⟨hauto, fun h => ?_, fun h => ?_, fun h => absurd hd h⟩
    · simp only at h
      split at h
      · cases h
      · simp only [Config.nRamp] at *; omega
    · simp only at h
      split at h
      · assumption
      · exact absurd rfl h
  | dwells hp =>
    exact ⟨hauto, fun h => absurd h (by simp [hp]), fun _ => hramped hp (by decide), fun _ => hp⟩
  | reverses hp => exact ⟨hauto, nofun, fun _ => hramped hp (by decide), fun h => absurd hd h⟩
  | stops hp => exact ⟨hauto, nofun, fun _ => hramped hp (by decide), fun h => absurd hd h⟩

theorem courseInv_row {s t : State} (h : Row s t) (hc : s.cfg.wellFormed = true) (ht : TickInv s) (hs : CourseInv s) :
    CourseInv t := by
  cases h with
  | samples hen =>
    exact courseInv_tickPend hs ((tickStartEnabled_iff s).mp hen).1 rfl rfl rfl rfl rfl
  | dwells hen h0 =>
    obtain ⟨hr, -⟩ := (tickStartEnabled_iff s).mp hen
    exact ⟨fun h => absurd h (by simp [hr]), hs.ramping, hs.ramped, fun _ => hs.dwelling h0⟩
  | dwellEnds hen h1 =>
    obtain ⟨hr, -⟩ := (tickStartEnabled_iff s).mp hen
    have hp : s.phase = .cruisingForward := hs.dwelling (by rw [h1]; decide)
    exact ⟨fun h => absurd h (by simp [hr]), nofun, fun _ => hs.ramped (by rw [hp]; decide),
      fun h => absurd rfl h⟩
  | evaluated hw hp =>
    have hsampling := ht.samplingPhase (by rw [hw]; rfl)
    exact courseInv_evaluated hp hc (ht.running (by rw [hw]; decide)) hsampling.2 hs
  | _ => exact hs.of_eq rfl rfl rfl rfl rfl rfl

/-! ### The tick program -/

theorem tickInv_of_wait {s : State} (hw : s.tpc = .wait) (hq : s.emitq = []) (hr : s.srep = 0) : TickInv s where
  running h := absurd hw h
  btcOnlyAtAcc h := absurd hw h
  queueOnlyAtEmit _ := hq
  queueShort := by rw [hq]; exact Nat.zero_le _
  readsLeft := by rw [hw]; rintro (h | h) <;> cases h
  noReadsLeft _ _ := hr
  allRead := by rw [hw]; exact nofun
  samplingPhase := by rw [hw]; exact nofun

theorem tickInv_of_emit {s : State} (hw : s.tpc = .emit) (hr : s.run = true) (hb : s.btcStep = 0)
    (hq : s.emitq.length ≤ 2) (hs : s.srep = 0) : TickInv s where
  running _ := hr
  btcOnlyAtAcc _ _ := hb
  queueOnlyAtEmit h := absurd hw h
  queueShort := hq
  readsLeft := by rw [hw]; rintro (h | h) <;> cases h
  noReadsLeft _ _ := hs
  allRead := by rw [hw]; exact nofun
  samplingPhase := by rw [hw]; exact nofun

/-- A host access leaves the tick program at its first position, with nothing queued or left to read. -/
theorem accessed_at_rest {s t : State} (h : Accessed s t) (hw : s.tpc = .wait) (hq : s.emitq = []) (hr : s.srep = 0) :
    t.tpc = .wait ∧ t.emitq = [] ∧ t.srep = 0 := by
  cases h with
  | refused => exact ⟨rfl, rfl, rfl⟩
  | presented hp =>
    cases hp with
    | refused => exact ⟨rfl, rfl, rfl⟩
    | _ => exact ⟨hw, hq, hr⟩
  | _ => exact ⟨hw, hq, hr⟩

theorem tickInv_evaluated {s t : State} (h : PhaseRule s t) (hb : s.btcStep = 0) (hr : s.run = true)
    (hq : s.emitq = []) (hs : s.srep = 0) : TickInv { t with tpc := .emit } := by
  cases h with
  | rests => exact tickInv_of_emit rfl hr hb (by rw [hq]; exact Nat.zero_le _) hs
  | ramps | dwells | stops => exact tickInv_of_emit rfl hr hb (by decide : 1 ≤ 2) hs
  | reverses => exact tickInv_of_emit rfl hr hb (by decide : 2 ≤ 2) hs

/-- The positions of a sampled tick at which no read is due. -/
theorem tickInv_of_no_read {s : State} (hread : s.tpc ≠ .read) (hacc : s.tpc ≠ .acc)
    (hr : s.run = true) (hb : s.btcStep = 0) (hq : s.emitq = []) (hs : s.srep = 0)
    (havg : s.tpc = .avg → s.scnt.toNat = s.cfg.nAvg) (hp : s.phase ≠ .stopped ∧ s.dwell = 0) : TickInv s where
  running _ := hr
  btcOnlyAtAcc _ _ := hb
  queueOnlyAtEmit _ := hq
  queueShort := by rw [hq]; exact Nat.zero_le _
  readsLeft h := absurd h (not_or.mpr ⟨hread, hacc⟩)
  noReadsLeft _ _ := hs
  allRead := havg
  samplingPhase _ := hp

/-- The two positions of the read loop. -/
theorem tickInv_of_reading {s : State} (hw : s.tpc = .read ∨ s.tpc = .acc) (hr : s.run = true)
    (hb : s.tpc ≠ .acc → s.btcStep = 0) (hq : s.emitq = []) (hs : 1 ≤ s.srep ∧ s.scnt.toNat + s.srep = s.cfg.nAvg)
    (hp : s.phase ≠ .stopped ∧ s.dwell = 0) : TickInv s where
  running _ := hr
  btcOnlyAtAcc _ h := hb h
  queueOnlyAtEmit _ := hq
  queueShort := by rw [hq]; exact Nat.zero_le _
  readsLeft _ := hs
  noReadsLeft h1 h2 := absurd hw (not_or.mpr ⟨h1, h2⟩)
  allRead h := by rcases hw with hw | hw <;> rw [hw] at h <;> cases h
  samplingPhase _ := hp

/-- T_ACC: one read fewer is due, and after the last of them all N_AVG samples are summed. -/
theorem tickInv_accumulated {s t : State} (hs : TickInv s) (hc : s.cfg.wellFormed = true) (hb : s.btcStep = 0)
    (hw : s.tpc = .acc) (ht : t = { s with
      sum := t.sum, scnt := s.scnt + 1, srep := s.srep - 1, tpc := if 0 < s.srep - 1 then .read else .avg }) :
    TickInv t := by
  have hr := hs.running (by rw [hw]; decide)
  have hq := hs.queueOnlyAtEmit (by rw [hw]; decide)
  have hp := hs.samplingPhase (by rw [hw]; rfl)
  obtain ⟨hleft, hsum⟩ := hs.readsLeft (.inr hw)
  obtain ⟨-, hmax, -, -⟩ := build_constraints hc
  have hcount : (s.scnt + 1).toNat = s.scnt.toNat + 1 := by bv_omega
  by_cases hmore : 0 < s.srep - 1
  · rw [if_pos hmore] at ht
    have hstill : (s.scnt + 1).toNat + (s.srep - 1) = s.cfg.nAvg := by omega
    rw [ht]
    exact tickInv_of_reading (.inl rfl) hr (fun _ => hb) hq ⟨hmore, hstill⟩ hp
  · rw [if_neg hmore] at ht
    have hall : (s.scnt + 1).toNat = s.cfg.nAvg := by omega
    rw [ht]
    exact tickInv_of_no_read nofun nofun hr hb hq (Nat.eq_zero_of_not_pos hmore) (fun _ => hall) hp

theorem tickInv_row {s t : State} (h : Row s t) (hb : s.btcStep = 0) (hc : s.cfg.wellFormed = true) (hs : TickInv s) :
    TickInv t := by
  have atWait (hen : s.tickStartEnabled = true) : s.run = true ∧ s.phase ≠ .stopped ∧ s.emitq = [] ∧ s.srep = 0 := by
    obtain ⟨hr, -, hp, -, hi⟩ := (tickStartEnabled_iff s).mp hen
    obtain ⟨-, hw⟩ := (idle_iff s).mp hi
    exact ⟨hr, hp, hs.queueOnlyAtEmit (by rw [hw]; decide), hs.noReadsLeft (by rw [hw]; decide) (by rw [hw]; decide)⟩
  have atRow {p : TickPos} (hw : s.tpc = p) (hp : p.sampling = true) :
      s.run = true ∧ s.emitq = [] ∧ s.phase ≠ .stopped ∧ s.dwell = 0 := by
    subst hw
    have hne {q : TickPos} (hq : q.sampling = false) : s.tpc ≠ q := fun h => by rw [h, hq] at hp; cases hp
    exact ⟨hs.running (hne rfl), hs.queueOnlyAtEmit (hne rfl), hs.samplingPhase hp⟩
  cases h with
  | rests => exact hs
  | samples hen h0 =>
    obtain ⟨hr, hp, hq, hsrep⟩ := atWait hen
    exact tickInv_of_no_read nofun nofun hr hb hq hsrep nofun ⟨hp, h0⟩
  | dwells hen =>
    obtain ⟨hr, -, hq, hsrep⟩ := atWait hen
    exact tickInv_of_emit rfl hr hb (by rw [hq]; exact Nat.zero_le _) hsrep
  | dwellEnds hen =>
    obtain ⟨hr, -, hq, hsrep⟩ := atWait hen
    exact tickInv_of_emit rfl hr hb (by simp [hq]) hsrep
  | refused => exact tickInv_of_wait rfl rfl rfl
  | cleared hw =>
    obtain ⟨hr, hq, hp⟩ := atRow hw rfl
    exact tickInv_of_reading (.inl rfl) hr (fun _ => hb) hq ⟨(build_constraints hc).1, Nat.zero_add _⟩ hp
  | loaded l hw =>
    obtain ⟨hr, hq, hp⟩ := atRow hw rfl
    exact tickInv_of_reading (.inr rfl) hr (fun h => absurd rfl h) hq (hs.readsLeft (.inl hw)) hp
  | accumulated hw => exact tickInv_accumulated hs hc hb hw rfl
  | averaged _ hw | velocity _ hw | distance _ hw =>
    obtain ⟨hr, hq, hp⟩ := atRow hw rfl
    have hsrep := hs.noReadsLeft (by rw [hw]; decide) (by rw [hw]; decide)
    exact tickInv_of_no_read nofun nofun hr hb hq hsrep nofun hp
  | evaluated hw hrule =>
    obtain ⟨hr, hq, -⟩ := atRow hw rfl
    exact tickInv_evaluated hrule hb hr hq (hs.noReadsLeft (by rw [hw]; decide) (by rw [hw]; decide))
  | emitted c rest hw hq =>
    have hsrep := hs.noReadsLeft (by rw [hw]; decide) (by rw [hw]; decide)
    have hshort := hs.queueShort
    rw [hq, List.length_cons] at hshort
    exact tickInv_of_emit hw (hs.running (by rw [hw]; decide)) hb (by show rest.length ≤ 2; omega) hsrep
  | ended hw hq => exact tickInv_of_wait rfl hq (hs.noReadsLeft (by rw [hw]; decide) (by rw [hw]; decide))

/-! ### The whole invariant -/

theorem machineInv_accessed {s t : State} (h : Accessed s t) (hi : s.idle = true) (hs : MachineInv s) :
    MachineInv t := by
  obtain ⟨hb, hw⟩ := (idle_iff s).mp hi
  obtain ⟨hbuild, hfault, hbtc, hsamples, htick, hcourse⟩ := hs
  have hq := htick.queueOnlyAtEmit (by rw [hw]; decide)
  have hr := htick.noReadsLeft (by rw [hw]; decide) (by rw [hw]; decide)
  obtain ⟨hw', hq', hr'⟩ := accessed_at_rest h hw hq hr
  exact ⟨by rw [accessed_cfg h, hbuild], faultInv_accessed h hb hfault, btcInv_accessed h hbtc,
    sampleInv_accessed h hbuild hsamples, tickInv_of_wait hw' hq' hr', courseInv_accessed h hbuild hcourse⟩

theorem machineInv_row {s t : State} (h : Row s t) (hb : s.btcStep = 0) (hf : s.fault = 0) (hs : MachineInv s) :
    MachineInv t := by
  obtain ⟨hbuild, -, hbtc, hsamples, htick, hcourse⟩ := hs
  exact ⟨by rw [row_cfg h, hbuild], faultInv_row h hb hf, btcInv_row h hbtc, sampleInv_row h hbuild hsamples,
    tickInv_row h hb hbuild htick, courseInv_row h hbuild htick hcourse⟩

/-- A micro-operation, and the move after it, leave the course and the tick program's position. -/
theorem micro_frame (u : MicroOp) (s : State) :
    let t := advance (u.effect s)
    t.cfg = s.cfg ∧ t.fault = s.fault ∧ t.tpc = s.tpc ∧ t.srep = s.srep ∧ t.emitq = s.emitq ∧ t.scnt = s.scnt ∧
      t.run = s.run ∧ t.phase = s.phase ∧ t.ramp = s.ramp ∧ t.dwell = s.dwell ∧ t.tickPend = s.tickPend ∧
      t.out = s.out := by
  intro t
  have ht : t = advance (u.effect s) := rfl
  rw [advance_frame] at ht
  rw [ht]
  cases u <;> exact ⟨rfl, rfl, rfl, rfl, rfl, rfl, rfl, rfl, rfl, rfl, rfl, rfl⟩

theorem machineInv_micro {s : State} {u : MicroOp} (hu : s.currentOp = some u) (hs : MachineInv s) :
    MachineInv (advance (u.effect s)) := by
  obtain ⟨hbuild, hfault, -, hsamples, htick, hcourse⟩ := hs
  obtain ⟨hcfg, hf, hw, hsrep, hq, hn, hr, hp, hramp, hd, hpend, -⟩ := micro_frame u s
  have hb := btcStep_ne_zero_of_currentOp hu
  have hf0 : s.fault = 0 := by_contra fun h => hb (hfault.btcAtRest h)
  exact ⟨by rw [hcfg, hbuild], faultInv_of_no_fault (hf.trans hf0), btcInv_advance _,
    sampleInv_advance (sampleInv_effect hsamples u),
    htick.of_eq hw hr (fun h1 h2 => absurd (htick.btcOnlyAtAcc (hw ▸ h1) (hw ▸ h2)) hb) hq hsrep hn hcfg hp hd,
    hcourse.of_eq hr hp hramp hd hpend hcfg⟩

/-- The invariant at reset, of any build (R48). -/
theorem machineInv_reset {c : Config} (hc : c.wellFormed = true) : MachineInv { State.reset with cfg := c } :=
  have hzero : sampleRange 0 := (sampleRange_iff 0).mpr (.inl (Nat.zero_le _))
  have hlow : -2048 * ((0 : BitVec 8).toNat : Int) ≤ (0 : Word).toInt := by decide
  have hhigh : (0 : Word).toInt ≤ 2047 * ((0 : BitVec 8).toNat : Int) := by decide
  ⟨hc, faultInv_of_no_fault rfl, ⟨Nat.zero_le _, Iff.intro (fun _ => rfl) fun _ => rfl, fun _ => rfl⟩,
    ⟨hzero, hzero, hzero, Nat.zero_le _, hlow, hhigh⟩, tickInv_of_wait rfl rfl rfl,
    ⟨fun _ => ⟨rfl, rfl, rfl, rfl⟩, fun _ => one_le_nRamp hc, fun h => absurd rfl h, fun h => absurd rfl h⟩⟩

theorem machineInv_resetEvent {s : State} (hs : MachineInv s) : MachineInv (resetEvent s) := by
  obtain ⟨hbuild, hfault, hbtc, hsamples, htick, hcourse⟩ := machineInv_reset hs.build
  exact ⟨hbuild, hfault.of_eq rfl rfl rfl, hbtc.of_eq rfl rfl rfl, hsamples.of_eq rfl rfl rfl rfl rfl rfl,
    htick.of_eq rfl rfl htick.btcOnlyAtAcc rfl rfl rfl rfl rfl rfl, hcourse.of_eq rfl rfl rfl rfl rfl rfl⟩

theorem machineInv_ticked {s t : State} (hr : s.run = true) (ht : t = { s with tickPend := true, tickOvr := t.tickOvr })
    (hs : MachineInv s) : MachineInv t := by
  obtain ⟨hbuild, hfault, hbtc, hsamples, htick, hcourse⟩ := hs
  rw [ht]
  exact ⟨hbuild, hfault.of_eq rfl rfl rfl, hbtc.of_eq rfl rfl rfl, hsamples.of_eq rfl rfl rfl rfl rfl rfl,
    htick.of_eq rfl rfl htick.btcOnlyAtAcc rfl rfl rfl rfl rfl rfl, courseInv_tickPend hcourse hr rfl rfl rfl rfl rfl⟩

theorem machineInv_performed {s t : State} {ev : Event} (h : Performed s ev t) (hs : MachineInv s) : MachineInv t := by
  cases h with
  | served _ hi ha => exact machineInv_accessed ha hi (hs.of_sameBlock rfl)
  | micro u hu => exact machineInv_micro hu hs
  | row hb hf hr => exact machineInv_row hr hb hf hs
  | engine => exact hs.of_sameBlock (sameBlock_engineStep s)
  | ticked hr => exact machineInv_ticked hr rfl hs
  | reset => exact machineInv_resetEvent hs
  | _ => exact hs.of_sameBlock rfl

/-- Settles O57. -/
theorem stepKeepsTheInvariant : Obligations.StepKeepsTheInvariant :=
  fun _ _ hs h => machineInv_performed (performed_of_step h) hs.eventTaken

end Sys2Proof.Machine
end

section
/-! The course (spec/43_clf.md): no state of the invariant stops the model, PHASE only moves forward (R257), and the
drive commands handed over and queued are those the course has decided (R255, R261). -/

namespace Sys2Proof.Machine

/-! ### No stop (R249) -/

/-- The speed command that the next phase evaluation reads. -/
theorem speedCommand_of_ramping {s : State} (hs : MachineInv s) (hp : s.phase = .accelerating) :
    ∃ c, speedCommand s.cfg (s.ramp + 1).toNat = some c := by
  have hlt : s.ramp.toNat < s.cfg.params.cmdSpeed.length := hs.course.ramping hp
  rw [ramp_succ_toNat hs.build hs.course hp]
  exact ⟨_, List.getElem?_eq_getElem hlt⟩

theorem phev_next {s : State} (hs : MachineInv s) : ∃ t, phev s = .next t := by
  cases hp : s.phase with
  | accelerating =>
    obtain ⟨c, hc⟩ := speedCommand_of_ramping hs hp
    rw [phev, hp]
    simp only [phevAccelerating, hc]
    exact ⟨_, rfl⟩
  | cruisingForward => exact ⟨_, phev_cruising hp⟩
  | reversing => exact ⟨_, phev_reversing hp⟩
  | stopped => exact ⟨s, by rw [phev, hp]⟩

theorem present_next (w : Word) (k : State → State) (s : State) : ∃ t, present w k s = .next t := by
  obtain ⟨t, -, h⟩ := present_cases w k s
  exact ⟨_, h⟩

theorem tickRow_next {s : State} (hs : MachineInv s) : ∃ t, tickRow s = .next t := by
  unfold tickRow
  cases s.tpc with
  | wait => exact ⟨_, rfl⟩
  | phev =>
    obtain ⟨t, ht⟩ := phev_next hs
    simp only [ht]
    exact ⟨_, rfl⟩
  | emit => exact ⟨_, rfl⟩
  | _ => exact present_next _ _ s

theorem sbmcStep_next {s : State} (hs : MachineInv s) : ∃ t, sbmcStep s = .next t := by
  rcases sbmcStep_cases s with ⟨-, e⟩ | ⟨-, -, e⟩ | ⟨-, -, e⟩ <;> rw [e]
  · exact ⟨_, rfl⟩
  · exact ⟨_, rfl⟩
  · exact tickRow_next hs

theorem hostWrite_next (off : BitVec 8) (v : Word) (s : State) : ∃ t, hostWrite off v s = .next t := by
  unfold hostWrite
  split
  · exact ⟨_, rfl⟩
  · split
    · exact acceptWord_next v s
    all_goals exact ⟨_, rfl⟩

theorem hostServe_next (s : State) : ∃ t, hostServe s = .next t := by
  rcases hostServe_cases s with ⟨-, e⟩ | ⟨-, e⟩ | ⟨r, rest, -, -, e⟩ <;> rw [e]
  · exact ⟨_, rfl⟩
  · exact ⟨_, rfl⟩
  · cases r with
    | read off => exact ⟨_, rfl⟩
    | write off v => exact hostWrite_next off v _

/-- Settles O59: the phase evaluation is the only place where a step could stop. -/
theorem invariantStatesNeverStop : Obligations.InvariantStatesNeverStop := by
  intro s hs
  rw [step_eq]
  cases s.nextEvent with
  | host => exact hostServe_next _
  | sbmc => exact sbmcStep_next hs.eventTaken
  | _ => exact ⟨_, rfl⟩

/-! ### PHASE only moves forward (R257) -/

/-- The phase is kept or the next one. -/
def PhaseMoves (p q : Phase) : Prop :=
  q = p ∨ (p = .accelerating ∧ q = .cruisingForward) ∨ (p = .cruisingForward ∧ q = .reversing) ∨
    (p = .reversing ∧ q = .stopped)

theorem phaseMoves_phaseRule {s t : State} (h : PhaseRule s t) : PhaseMoves s.phase t.phase := by
  cases h with
  | rests => exact .inl rfl
  | ramps c hp =>
    simp only [hp]
    split
    · exact .inr (.inl ⟨rfl, rfl⟩)
    · exact .inl rfl
  | dwells => exact .inl rfl
  | reverses hp => exact .inr (.inr (.inl ⟨hp, rfl⟩))
  | stops hp => exact .inr (.inr (.inr ⟨hp, rfl⟩))

theorem phaseMoves_row {s t : State} (h : Row s t) (hs : CourseInv s) : PhaseMoves s.phase t.phase := by
  cases h with
  | dwellEnds _ h1 => exact .inr (.inr (.inl ⟨hs.dwelling (by rw [h1]; decide), rfl⟩))
  | evaluated _ hp => exact (phaseMoves_phaseRule hp :)
  | _ => exact .inl rfl

theorem phaseMoves_performed {s t : State} {ev : Event} (h : Performed s ev t) (hs : MachineInv s) (hr : s.run = true)
    (hne : ev ≠ .rst) : PhaseMoves s.phase t.phase := by
  cases h with
  | served _ hi ha =>
    rcases accessed_of_auto ha hi hr with hsame | ⟨c, info, v, -, rfl⟩
    · rw [hsame]; exact .inl rfl
    · exact .inl rfl
  | micro u =>
    obtain ⟨-, -, -, -, -, -, -, hp, -⟩ := micro_frame u s
    exact .inl hp
  | row _ _ hrow => exact phaseMoves_row hrow hs.course
  | engine => rw [sameBlock_engineStep s]; exact .inl rfl
  | reset => exact absurd rfl hne
  | _ => exact .inl rfl

/-- Settles O40: RUN cannot be accepted in AUTO mode, so the phase moves by the phase evaluation, or by the end of a
dwell, which is in CruisingForward. -/
theorem phaseOnlyMovesForward : Obligations.PhaseOnlyMovesForward :=
  fun _ _ hs hr h hne => (phaseMoves_performed (performed_of_step h) hs.eventTaken hr hne :)

/-! ### The decided commands (R255, R261) -/

theorem outInv_iff_of_auto {s : State} (hr : s.run = true) : OutInv s ↔ s.out ++ s.emitq = decidedCommands s := by
  rw [OutInv, if_pos hr]

theorem outInv_of_auto {s : State} (h : s.out ++ s.emitq = decidedCommands s) (hr : s.run = true) : OutInv s :=
  (outInv_iff_of_auto hr).mpr h

/-- Up to the stop command, the ramp's commands so far. -/
theorem decidedCommands_ramp {s : State} (h : s.phase = .accelerating ∨ s.phase = .cruisingForward ∧ s.dwell = 0) :
    decidedCommands s = s.cfg.params.cmdSpeed.take s.ramp.toNat := by
  rcases h with hp | ⟨hp, hd⟩
  · simp only [decidedCommands, hp]
  · simp only [decidedCommands, hp, hd, if_true, List.append_nil]

theorem decidedCommands_dwelling {s : State} (hp : s.phase = .cruisingForward) (hd : s.dwell ≠ 0) :
    decidedCommands s = s.cfg.params.cmdSpeed.take s.ramp.toNat ++ [s.cfg.params.cmdStop] := by
  simp only [decidedCommands, hp, if_neg hd]

theorem decidedCommands_reversing {s : State} (hp : s.phase = .reversing) :
    decidedCommands s =
      s.cfg.params.cmdSpeed.take s.ramp.toNat ++ [s.cfg.params.cmdStop, s.cfg.params.cmdReverse] := by
  simp only [decidedCommands, hp]

theorem decidedCommands_stopped {s : State} (hp : s.phase = .stopped) :
    decidedCommands s =
      s.cfg.params.cmdSpeed.take s.ramp.toNat ++
        [s.cfg.params.cmdStop, s.cfg.params.cmdReverse, s.cfg.params.cmdStop] := by
  simp only [decidedCommands, hp]

theorem outInv_of_eq {s t : State} (h : OutInv s) (ho : t.out = s.out) (hq : t.emitq = s.emitq) (hr : t.run = s.run)
    (hc : t.cfg = s.cfg) (hp : t.phase = s.phase) (hm : t.ramp = s.ramp) (hd : t.dwell = s.dwell) : OutInv t := by
  rw [OutInv, decidedCommands, ho, hq, hr, hc, hp, hm, hd]
  exact h

/-- RUN finds nothing handed over or queued, and has decided nothing yet. -/
theorem outInv_started {s : State} (h : OutInv s) (hr : s.run = false) : OutInv (startCourse s) := by
  rw [OutInv, hr] at h
  exact h

theorem outInv_accessed {s t : State} (h : Accessed s t) (hi : s.idle = true) (hq : s.emitq = []) (hs : OutInv s) :
    OutInv t := by
  cases h with
  | refused => exact outInv_of_eq hs rfl hq.symm rfl rfl rfl rfl rfl
  | presented hp =>
    obtain ⟨-, hw⟩ := (idle_iff s).mp hi
    cases hp with
    | refused => exact outInv_of_eq hs rfl hq.symm rfl rfl rfl rfl rfl
    | started ha => exact outInv_started hs (host_mode_of_accepting ha hw)
    | _ => exact outInv_of_eq hs rfl rfl rfl rfl rfl rfl rfl
  | _ => exact outInv_of_eq hs rfl rfl rfl rfl rfl rfl rfl

/-- The phase evaluation queues what it decides: at T_PHEV the queue is empty and no dwell is running. -/
theorem outInv_evaluated {s t : State} (h : PhaseRule s t) (hm : MachineInv s) (hr : s.run = true) (hq : s.emitq = [])
    (hd : s.dwell = 0) (hs : OutInv s) : OutInv { t with tpc := .emit } := by
  have hout : s.out = decidedCommands s := by
    rw [outInv_iff_of_auto hr, hq, List.append_nil] at hs
    exact hs
  cases h with
  | rests => exact outInv_of_eq hs rfl rfl rfl rfl rfl rfl rfl
  | ramps c hp hc =>
    rw [decidedCommands_ramp (.inl hp)] at hout
    rw [ramp_succ_toNat hm.build hm.course hp] at hc
    refine outInv_of_auto ?_ hr
    refine Eq.trans ?queued (decidedCommands_ramp ?ramping).symm
    case queued =>
      simp only [hout, ramp_succ_toNat hm.build hm.course hp, List.take_add_one]
      exact congrArg (_ ++ Option.toList ·) hc.symm
    case ramping => split <;> simp [hd]
  | dwells hp hne =>
    rw [decidedCommands_ramp (.inr ⟨hp, hd⟩)] at hout
    refine outInv_of_auto ?_ hr
    rw [decidedCommands_dwelling (by exact hp) (by exact hne)]
    exact congrArg (· ++ _) hout
  | reverses hp =>
    rw [decidedCommands_ramp (.inr ⟨hp, hd⟩)] at hout
    refine outInv_of_auto ?_ hr
    rw [decidedCommands_reversing rfl]
    exact congrArg (· ++ _) hout
  | stops hp =>
    rw [decidedCommands_reversing hp] at hout
    refine outInv_of_auto ?_ hr
    rw [decidedCommands_stopped rfl]
    simp only [hout, List.append_assoc]
    rfl

theorem outInv_row {s t : State} (h : Row s t) (hm : MachineInv s) (hs : OutInv s) : OutInv t := by
  have hempty {p : TickPos} (hw : s.tpc = p) (hp : p.sampling = true) : s.emitq = [] :=
    hm.tick.queueOnlyAtEmit (by rintro he; rw [← hw, he] at hp; cases hp)
  cases h with
  | dwells hen h0 h1 =>
    obtain ⟨hr, -⟩ := (tickStartEnabled_iff s).mp hen
    have hp := hm.course.dwelling h0
    have hleft : s.dwell - 1 ≠ 0 := fun h => h1 (sub_eq_zero.mp h)
    rw [outInv_iff_of_auto hr, decidedCommands_dwelling hp h0] at hs
    refine outInv_of_auto ?_ hr
    rw [decidedCommands_dwelling (by exact hp) (by exact hleft)]
    exact hs
  | dwellEnds hen h1 =>
    obtain ⟨hr, -⟩ := (tickStartEnabled_iff s).mp hen
    have h0 : s.dwell ≠ 0 := by rw [h1]; decide
    rw [outInv_iff_of_auto hr, decidedCommands_dwelling (hm.course.dwelling h0) h0] at hs
    refine outInv_of_auto ?_ hr
    rw [decidedCommands_reversing rfl]
    calc s.out ++ (s.emitq ++ [s.cfg.params.cmdReverse])
        = (s.out ++ s.emitq) ++ [s.cfg.params.cmdReverse] := (List.append_assoc ..).symm
      _ = _ := by rw [hs, List.append_assoc]; rfl
  | refused _ _ hw => exact outInv_of_eq hs rfl (hempty rfl hw).symm rfl rfl rfl rfl rfl
  | evaluated hw hrule =>
    have hr := hm.tick.running (by rw [hw]; decide)
    obtain ⟨-, hd⟩ := hm.tick.samplingPhase (by rw [hw]; rfl)
    exact outInv_evaluated hrule hm hr (hempty hw rfl) hd hs
  | emitted c rest _ hq =>
    rw [OutInv, hq] at hs
    rw [OutInv, List.append_assoc]
    exact hs
  | _ => exact outInv_of_eq hs rfl rfl rfl rfl rfl rfl rfl

theorem outInv_performed {s t : State} {ev : Event} (h : Performed s ev t) (hm : MachineInv s) (hs : OutInv s) :
    OutInv t := by
  cases h with
  | served _ hi ha =>
    obtain ⟨-, hw⟩ := (idle_iff s).mp hi
    have hq := hm.tick.queueOnlyAtEmit (by rw [hw]; decide)
    exact outInv_accessed ha hi hq (outInv_of_eq hs rfl rfl rfl rfl rfl rfl rfl)
  | micro u =>
    obtain ⟨hcfg, -, -, -, hq, -, hr, hp, hramp, hd, -, hout⟩ := micro_frame u s
    exact outInv_of_eq hs hout hq hr hcfg hp hramp hd
  | row _ _ hrow => exact outInv_row hrow hm hs
  | engine => rw [sameBlock_engineStep s]; exact outInv_of_eq hs rfl rfl rfl rfl rfl rfl rfl
  | reset => rfl
  | _ => exact outInv_of_eq hs rfl rfl rfl rfl rfl rfl rfl

/-- Settles O43. -/
theorem stepKeepsTheDecidedCommands : Obligations.StepKeepsTheDecidedCommands :=
  fun _ _ hm hs h => outInv_performed (performed_of_step h) hm.eventTaken (outInv_of_eq hs rfl rfl rfl rfl rfl rfl rfl)

/-- What the course has decided begins its grammar: after the ramp all speed commands are out. -/
theorem decidedCommands_prefix {s : State} (hs : CourseInv s) : decidedCommands s <+: courseGrammar s.cfg := by
  have hall (hp : s.phase ≠ .accelerating) : s.cfg.params.cmdSpeed.take s.ramp.toNat = s.cfg.params.cmdSpeed :=
    List.take_of_length_le (hs.ramped hp).ge
  cases hp : s.phase with
  | accelerating =>
    rw [decidedCommands_ramp (.inl hp)]
    exact (List.take_prefix _ _).trans (List.prefix_append _ _)
  | cruisingForward =>
    by_cases hd : s.dwell = 0
    · rw [decidedCommands_ramp (.inr ⟨hp, hd⟩)]
      exact (List.take_prefix _ _).trans (List.prefix_append _ _)
    · rw [decidedCommands_dwelling hp hd, hall (by simp [hp])]
      exact (List.prefix_append_right_inj _).mpr ⟨_, rfl⟩
  | reversing =>
    rw [decidedCommands_reversing hp, hall (by simp [hp])]
    exact (List.prefix_append_right_inj _).mpr ⟨_, rfl⟩
  | stopped =>
    rw [decidedCommands_stopped hp, hall (by simp [hp])]
    exact List.prefix_rfl

/-- Settles O44: OUT is the first part of what the course has decided. -/
theorem outIsAPrefixOfTheCourseGrammar : Obligations.OutIsAPrefixOfTheCourseGrammar := by
  intro s hm hs
  have hprefix : s.out <+: s.out ++ s.emitq := List.prefix_append _ _
  rw [OutInv] at hs
  rw [hs] at hprefix
  split at hprefix
  · exact hprefix.trans (decidedCommands_prefix hm.course)
  · exact hprefix.trans List.nil_prefix

end Sys2Proof.Machine
end

section
/-! The reference engine and slave (spec/20_memory.md R85 to R93): its steps meet the engine contract, move bytes only
between TXBUF, RXBUF and the addressed slave register, and keep the agreement of the BTC and the engine on the
transaction. -/

namespace Sys2Proof.Machine

/-! ### The engine's steps as moves of the contract (R73 to R82) -/

/-- Three moves in a row, as one step: the bus events of a START and its answer. -/
theorem EngineContract.three {l₀ l₁ l₂ l₃ : Link} {e₀ e₁ e₂ e₃ : Eng} {w₁ w₂ w₃ : List WireEvent}
    (h₁ : EngineMove l₀ e₀ w₁ l₁ e₁) (h₂ : EngineMove l₁ e₁ w₂ l₂ e₂) (h₃ : EngineMove l₂ e₂ w₃ l₃ e₃) :
    EngineContract l₀ e₀ (w₁ ++ (w₂ ++ (w₃ ++ []))) l₃ e₃ :=
  .move h₁ (.move h₂ (.move h₃ (.rest l₃ e₃)))

theorem EngineContract.one {l₀ l₁ : Link} {e₀ e₁ : Eng} {w : List WireEvent} (h : EngineMove l₀ e₀ w l₁ e₁) :
    EngineContract l₀ e₀ (w ++ []) l₁ e₁ :=
  .move h (.rest l₁ e₁)

/-- What the contract says of a step that leads from `s` to `t`. -/
def MeetsContract (s t : State) : Prop :=
  ∃ w, t.wire = s.wire ++ w ∧ EngineContract s.mode.link s.eng w t.mode.link t.eng

theorem meetsContract_engStartW {s : State} (hm : s.mode = .idle) (hstt : s.eng.stt = true) (htr : s.eng.tr = true) :
    MeetsContract s (engStartW s) := by
  have hstart := EngineMove.start s.eng hstt
  have haddr := EngineMove.address { s.eng with busy := true }
  rw [htr] at haddr
  rw [MeetsContract, hm]
  unfold engStartW
  split
  · exact ⟨_, rfl, .three hstart haddr (.ackedWrite _ htr)⟩
  · exact ⟨_, rfl, .three hstart haddr (.nacked _)⟩

theorem meetsContract_engTx {s : State} (hm : s.mode = .txOpen) (hrdy : s.eng.txrdy = false) :
    MeetsContract s (engTx s) := by
  refine ⟨[.dw s.eng.txbuf, .ackS], rfl, ?_⟩
  show EngineContract s.mode.link s.eng _ s.mode.link { s.eng with txrdy := true }
  rw [hm]
  exact .move (.send s.eng hrdy) (.one (.sentAcked s.eng))

theorem meetsContract_engStopW {s : State} (hm : s.mode = .txOpen) (hrdy : s.eng.txrdy = true) (hstp : s.eng.stp = true)
    (hstt : s.eng.stt = false) (htr : s.eng.tr = true) : MeetsContract s (engStopW s) := by
  rw [MeetsContract, hm]
  exact ⟨_, rfl, .one (.stop s.eng hstp htr hstt hrdy)⟩

theorem meetsContract_engStartR {s : State} (hm : s.mode = .txOpen) (hrdy : s.eng.txrdy = true)
    (hstt : s.eng.stt = true) (htr : s.eng.tr = false) : MeetsContract s (engStartR s) := by
  have heng : (engStartR s).eng = { s.eng with txrdy := s.eng.tr, stt := false } := by rw [htr]; rfl
  refine ⟨[.sr, .ad s.eng.sa (!s.eng.tr), .ackS], by rw [htr]; rfl, ?_⟩
  rw [hm, heng]
  exact .three (.restart s.eng hstt hrdy) (.address _) (.ackedRead _ htr)

theorem meetsContract_engRx {s : State} (hm : s.mode = .rxOpen) (hrdy : s.eng.rxrdy = false) (htr : s.eng.tr = false)
    (hstt : s.eng.stt = false) : MeetsContract s (engRx s) := by
  unfold engRx
  split
  · exact ⟨_, rfl, by rw [hm]; exact .one (.receiveLast s.eng _ htr hstt hrdy ‹_›)⟩
  · refine ⟨[.dr s.slv.nextByte, .ackM], rfl, ?_⟩
    show EngineContract s.mode.link s.eng _ s.mode.link { s.eng with rxbuf := s.slv.nextByte, rxrdy := true }
    rw [hm]
    exact .one (.receive s.eng _ htr hstt hrdy (Bool.eq_false_of_not_eq_true ‹_›))

/-- Settles O53: each step of the engine is a chain of moves, whose conditions on the direction and the pending START
are the bus invariant's. -/
theorem referenceEngineMeetsTheContract : Obligations.ReferenceEngineMeetsTheContract := by
  intro s hb hen
  show MeetsContract s (engineStep s)
  rcases engineStep_cases s with ⟨hno, -⟩ | ⟨hm, hstt, htr, e⟩ | ⟨hm, hrdy, e⟩ | ⟨hm, hrdy, hstp, hstt, e⟩ |
    ⟨hm, hrdy, hstt, htr, e⟩ | ⟨hm, hrdy, e⟩
  · rw [hen] at hno; cases hno
  · rw [e]; exact meetsContract_engStartW hm hstt htr
  · rw [e]; exact meetsContract_engTx hm hrdy
  · rw [e]; exact meetsContract_engStopW hm hrdy hstp hstt (hb.transmitting hm hstt)
  · rw [e]; exact meetsContract_engStartR hm hrdy hstt htr
  · obtain ⟨htr, hstt⟩ := hb.receiving hm
    rw [e]; exact meetsContract_engRx hm hrdy htr hstt

/-! ### The engine's steps whole (R86 to R92) -/

theorem engineStep_of_move {s : State} {f : State → State} (h : engineMove s = some f) : engineStep s = f s := by
  rw [engineStep, h]

theorem engineStep_tx {s : State} (hm : s.mode = .txOpen) (hrdy : s.eng.txrdy = false) : engineStep s = engTx s :=
  engineStep_of_move (by simp [engineMove, hm, hrdy])

theorem engineStep_rx {s : State} (hm : s.mode = .rxOpen) (hrdy : s.eng.rxrdy = false) : engineStep s = engRx s :=
  engineStep_of_move (by simp [engineMove, hm, hrdy])

theorem engineStep_startW {s : State} (hm : s.mode = .idle) (hstt : s.eng.stt = true) (htr : s.eng.tr = true) :
    engineStep s = engStartW s :=
  engineStep_of_move (by simp [engineMove, hm, hstt, htr])

theorem engineStep_startR {s : State} (hm : s.mode = .txOpen) (hrdy : s.eng.txrdy = true) (hstt : s.eng.stt = true)
    (htr : s.eng.tr = false) : engineStep s = engStartR s :=
  engineStep_of_move (by simp [engineMove, hm, hrdy, hstt, htr])

theorem engineStep_stopW {s : State} (hm : s.mode = .txOpen) (hrdy : s.eng.txrdy = true) (hstp : s.eng.stp = true)
    (hstt : s.eng.stt = false) : engineStep s = engStopW s :=
  engineStep_of_move (by simp [engineMove, hm, hrdy, hstt, hstp])

/-- The first byte after the address becomes the pointer (R92). -/
theorem slaveWrite_first {v : Slave} (h : v.first = true) (b : Byte) :
    slaveWrite b v = { v with ptr := b, first := false } :=
  if_pos h

/-- Any other byte goes to the register at the pointer. -/
theorem slaveWrite_data {v : Slave} (h : v.first = false) (b : Byte) :
    slaveWrite b v = { v with sreg := v.sreg.write v.ptr.toNat b, ptr := v.ptr + 1 } :=
  if_neg (by simp [h])

theorem engRx_last {s : State} (h : s.eng.stp = true) :
    engRx s = { s with
      eng := { s.eng with rxbuf := s.slv.nextByte, rxrdy := true, stp := false, busy := false }
      slv := slaveNext s.slv, mode := .idle, wire := s.wire ++ [.dr s.slv.nextByte, .nackM, .p] } :=
  if_pos h

theorem engRx_more {s : State} (h : s.eng.stp = false) :
    engRx s = { s with
      eng := { s.eng with rxbuf := s.slv.nextByte, rxrdy := true }
      slv := slaveNext s.slv, wire := s.wire ++ [.dr s.slv.nextByte, .ackM] } :=
  if_neg (by simp [h])

theorem engStartW_acked {s : State} (h : s.eng.sa = s.cfg.slvAddr) :
    engStartW s = { s with
      eng := { s.eng with busy := true, stt := false, txrdy := true }
      slv := { s.slv with first := true }, mode := .txOpen, wire := s.wire ++ [.s, .ad s.eng.sa false, .ackS] } :=
  if_pos (beq_iff_eq.mpr h)

theorem engStartW_nacked {s : State} (h : s.eng.sa ≠ s.cfg.slvAddr) :
    engStartW s = { s with
      eng := { s.eng with busy := true }, mode := .dead, wire := s.wire ++ [.s, .ad s.eng.sa false, .nackS] } :=
  if_neg (by simp [slaveAcks, h])

/-- Settles O55: each enabled step is its rule, and a byte transmitted after the first is one write of the slave's
memory. -/
theorem transmittedByteGoesToTheAddressedRegister : Obligations.TransmittedByteGoesToTheAddressedRegister := by
  intro s t
  refine ⟨fun hwf hm hrdy => ?tx, fun hm hrdy => ?rx, fun hm hstt htr => ?startW, fun hm hrdy hstt htr => ?startR,
    fun hm hrdy hstp hstt => ?stopW⟩
  case tx =>
    have ht : t = engTx s := engineStep_tx hm hrdy
    have hslv : t.slv = slaveWrite s.eng.txbuf s.slv := by rw [ht]; rfl
    refine ⟨by rw [ht]; rfl, fun hfirst => by rw [hslv, slaveWrite_first hfirst], fun hfirst => ?_⟩
    rw [hslv, slaveWrite_data hfirst]
    refine ⟨rfl, hfirst, fun a => ?_⟩
    rw [Memory.read_write _ _ _ _ hwf]
    exact if_congr eq_comm rfl rfl
  case rx =>
    have ht : t = engRx s := engineStep_rx hm hrdy
    exact ⟨fun hstp => ht.trans (engRx_last hstp), fun hstp => ht.trans (engRx_more hstp)⟩
  case startW =>
    have ht : t = engStartW s := engineStep_startW hm hstt htr
    exact ⟨fun hsa => ht.trans (engStartW_acked hsa), fun hsa => ht.trans (engStartW_nacked hsa)⟩
  case startR => exact engineStep_startR hm hrdy hstt htr
  case stopW => exact engineStep_stopW hm hrdy hstp hstt

/-! ### BUSY and the open transaction (R74, R76) -/

theorem modeMatchesBusy_of_eq {s t : State} (h : modeMatchesBusy s) (hm : t.mode = s.mode)
    (hb : t.eng.busy = s.eng.busy) : modeMatchesBusy t := by
  rw [modeMatchesBusy, hm, hb]
  exact h

theorem modeMatchesBusy_engineStep {s : State} (h : modeMatchesBusy s) : modeMatchesBusy (engineStep s) := by
  rcases engineStep_cases s with ⟨-, e⟩ | ⟨-, -, -, e⟩ | ⟨-, -, e⟩ | ⟨-, -, -, -, e⟩ | ⟨hm, -, -, -, e⟩ | ⟨-, -, e⟩ <;>
    rw [e]
  · exact h
  · unfold engStartW; split <;> rfl
  · exact h
  · rfl
  · rw [modeMatchesBusy, hm] at h
    exact h
  · unfold engRx; split
    · rfl
    · exact h

theorem modeMatchesBusy_effect {s : State} (h : modeMatchesBusy s) (u : MicroOp) : modeMatchesBusy (u.effect s) := by
  cases u with
  | init => rfl
  | _ => exact h

/-- What the bus invariant says of the engine, where `ahead` tells that a START is still to come. -/
structure EngAgrees (ahead : Bool) (s : State) : Prop where
  transmitReady : s.eng.txrdy = true → s.mode = .txOpen ∨ s.mode = .off
  transmitting : s.mode = .txOpen → s.eng.stt = false → s.eng.tr = true
  receiving : s.mode = .rxOpen → s.eng.tr = false ∧ s.eng.stt = false
  startAhead : ahead = true → s.mode ≠ .rxOpen ∧ (s.mode = .txOpen → s.eng.tr = true)

theorem busInv_iff (s : State) :
    BusInv s ↔ modeMatchesBusy s ∧ TurnsOnce s.remaining ∧ EngAgrees (startAhead s.remaining) s :=
  ⟨fun ⟨h1, h2, h3, h4, h5, h6⟩ => ⟨h1, h5, h2, h3, h4, h6⟩,
    fun ⟨h1, h5, h2, h3, h4, h6⟩ => ⟨h1, h2, h3, h4, h5, h6⟩⟩

theorem EngAgrees.of_eq {a : Bool} {s t : State} (h : EngAgrees a s) (he : t.eng = s.eng) (hm : t.mode = s.mode) :
    EngAgrees a t := by
  obtain ⟨h1, h2, h3, h4⟩ := h
  rw [← he, ← hm] at h1 h2 h3 h4
  exact ⟨h1, h2, h3, h4⟩

theorem EngAgrees.no_start {a : Bool} {s : State} (h : EngAgrees a s) : EngAgrees false s :=
  ⟨h.transmitReady, h.transmitting, h.receiving, nofun⟩

/-! ### The agreement under the steps of the block -/

theorem busInv_of_eq {s t : State} (h : BusInv s) (he : t.eng = s.eng) (hm : t.mode = s.mode)
    (hl : t.ulist = s.ulist) (hb : t.btcStep = s.btcStep) : BusInv t := by
  have hrem : t.remaining = s.remaining := by rw [State.remaining, State.remaining, hl, hb]
  rw [busInv_iff] at h ⊢
  obtain ⟨hbusy, hturns, hagrees⟩ := h
  rw [hrem]
  exact ⟨modeMatchesBusy_of_eq hbusy hm (by rw [he]), hturns, hagrees.of_eq he hm⟩

/-- A command's list, not begun, asks nothing of the engine: its `W_IDLE` stands before its STARTs. -/
theorem busInv_loaded {s t : State} (h : BusInv s) {l : List MicroOp} (hl : CommandList l) (he : t.eng = s.eng)
    (hm : t.mode = s.mode) (hlist : t.ulist = l) (hstep : t.btcStep = 1) : BusInv t := by
  have hrem : t.remaining = l := by rw [State.remaining, hlist, hstep]; rfl
  rw [busInv_iff] at h ⊢
  obtain ⟨hbusy, -, hagrees⟩ := h
  rw [hrem, hl.startsAfterIdle]
  exact ⟨modeMatchesBusy_of_eq hbusy hm (by rw [he]), hl.turnsOnce, hagrees.no_start.of_eq he hm⟩

theorem busInv_presented {s t : State} (h : Presented s t) (hs : BusInv s) : BusInv t := by
  cases h with
  | loaded l xyz _ hl => exact busInv_loaded hs hl rfl rfl rfl rfl
  | _ => exact busInv_of_eq hs rfl rfl rfl rfl

theorem busInv_accessed {s t : State} (h : Accessed s t) (hs : BusInv s) : BusInv t := by
  cases h with
  | presented hp => exact busInv_presented hp hs
  | _ => exact busInv_of_eq hs rfl rfl rfl rfl

theorem busInv_row {s t : State} (h : Row s t) (hs : BusInv s) : BusInv t := by
  cases h with
  | loaded l _ hl => exact busInv_loaded hs hl rfl rfl rfl rfl
  | evaluated _ hp => cases hp <;> exact busInv_of_eq hs rfl rfl rfl rfl
  | _ => exact busInv_of_eq hs rfl rfl rfl rfl

/-- After reset nothing is specified of the engine, and no command is in progress. -/
theorem busInv_of_off {s : State} (hm : s.mode = .off) (hb : s.btcStep = 0) : BusInv s := by
  have hrem : s.remaining = [] := if_pos hb
  rw [busInv_iff, hrem]
  refine ⟨by rw [modeMatchesBusy, hm]; trivial, Nat.zero_le _, fun _ => .inr hm, ?_, ?_, nofun⟩
  · rw [hm]; exact nofun
  · rw [hm]; exact nofun

/-! ### The agreement under a micro-operation -/

/-- No transaction is open: nothing is asked of the engine. -/
theorem engAgrees_of_closed {s : State} (hm : s.mode = .off ∨ s.mode = .idle) (a : Bool)
    (hrdy : s.eng.txrdy = true → s.mode = .off) : EngAgrees a s := by
  refine ⟨fun h => .inr (hrdy h), ?_, ?_, fun _ => ⟨?_, ?_⟩⟩ <;> rcases hm with hm | hm <;> rw [hm] <;> exact nofun

/-- Where `W_IDLE` is taken no transaction is open (R74, R145). -/
theorem engAgrees_wIdle {s : State} {b : Bool} (hbusy : modeMatchesBusy s) (hs : EngAgrees b s)
    (hen : MicroOp.wIdle.enabled s.eng = true) (a : Bool) : EngAgrees a s := by
  have hfree : s.eng.busy = false := by
    simp only [MicroOp.enabled, Bool.and_eq_true, Bool.not_eq_true'] at hen
    exact hen.1
  have hclosed : s.mode = .off ∨ s.mode = .idle := by
    rw [modeMatchesBusy, hfree] at hbusy
    cases hm : s.mode <;> simp [hm] at hbusy ⊢
  refine engAgrees_of_closed hclosed a fun hrdy => (hs.transmitReady hrdy).resolve_left ?_
  rcases hclosed with hm | hm <;> rw [hm] <;> exact nofun

theorem startAhead_cons {u : MicroOp} (rest : List MicroOp) (hu : u ≠ .wIdle) :
    startAhead (u :: rest) = (u.isStart || startAhead rest) := by
  rw [startAhead, List.takeWhile_cons_of_pos (by simp [hu]), List.any_cons, startAhead]

/-- After a `START_R` no START is left. -/
theorem no_start_of_startR {rest : List MicroOp} (h : TurnsOnce (.startR :: rest)) :
    rest.countP MicroOp.isStart = 0 := by
  rw [TurnsOnce, List.dropWhile_cons_of_neg (by simp), List.countP_cons_of_pos rfl] at h
  omega

theorem startAhead_of_no_start {l : List MicroOp} (h : l.countP MicroOp.isStart = 0) : startAhead l = false :=
  List.any_eq_false.mpr fun u hu => List.countP_eq_zero.mp h u ((List.takeWhile_sublist _).mem hu)

/-- What is left after a micro-operation still turns at most once. -/
theorem turnsOnce_tail {u : MicroOp} {rest : List MicroOp} (h : TurnsOnce (u :: rest)) : TurnsOnce rest := by
  by_cases hu : u = .startR
  · subst hu
    have hnone := no_start_of_startR h
    exact ((List.dropWhile_sublist _).countP_le.trans hnone.le).trans (Nat.zero_le 1)
  · rw [TurnsOnce, List.dropWhile_cons_of_pos (by simp [hu])] at h
    exact h

/-- Executing the first of the remaining micro-operations keeps the agreement for those after it. -/
theorem engAgrees_effect {s : State} {u : MicroOp} {rest : List MicroOp} (hbusy : modeMatchesBusy s)
    (hen : u.enabled s.eng = true) (hturns : TurnsOnce (u :: rest)) (hs : EngAgrees (startAhead (u :: rest)) s) :
    EngAgrees (startAhead rest) (u.effect s) := by
  by_cases hu : u = .wIdle
  · subst hu
    exact engAgrees_wIdle hbusy hs hen _
  rw [startAhead_cons rest hu] at hs
  cases u with
  | wIdle => exact absurd rfl hu
  | init => exact engAgrees_of_closed (.inr rfl) _ nofun
  | startW =>
    obtain ⟨hnot, -⟩ := hs.startAhead rfl
    exact ⟨hs.transmitReady, fun _ _ => rfl, fun hm => absurd hm hnot, fun _ => ⟨hnot, fun _ => rfl⟩⟩
  | startR =>
    obtain ⟨hnot, -⟩ := hs.startAhead rfl
    rw [startAhead_of_no_start (no_start_of_startR hturns)]
    exact ⟨hs.transmitReady, nofun, fun hm => absurd hm hnot, nofun⟩
  | tx b => exact ⟨nofun, hs.transmitting, hs.receiving, hs.startAhead⟩
  | _ => exact ⟨hs.transmitReady, hs.transmitting, hs.receiving, hs.startAhead⟩

theorem busInv_micro {s : State} {u : MicroOp} (hu : s.currentOp = some u) (hen : u.enabled s.eng = true)
    (hs : BusInv s) : BusInv (advance (u.effect s)) := by
  have hrem := remaining_of_currentOp hu
  have hrest : (advance (u.effect s)).remaining = s.ulist.drop s.btcStep := by
    rw [advance_remaining, effect_ulist, effect_btcStep]
  rw [busInv_iff] at hs ⊢
  rw [hrem] at hs
  rw [hrest]
  obtain ⟨hbusy, hturns, hagrees⟩ := hs
  exact ⟨modeMatchesBusy_of_eq (modeMatchesBusy_effect hbusy u) (advance_mode _) (by rw [advance_eng]),
    turnsOnce_tail hturns, (engAgrees_effect hbusy hen hturns hagrees).of_eq (advance_eng _) (advance_mode _)⟩

/-! ### The agreement under the engine's steps -/

/-- Each step of the engine leaves its fields as its new mode wants them; a START still to come keeps it from turning to
receive. -/
theorem engAgrees_engineStep {a : Bool} {s : State} (hs : EngAgrees a s) : EngAgrees a (engineStep s) := by
  rcases engineStep_cases s with ⟨-, e⟩ | ⟨hm, -, htr, e⟩ | ⟨hm, -, e⟩ | ⟨-, -, -, -, e⟩ | ⟨hm, -, -, htr, e⟩ |
    ⟨hm, -, e⟩ <;> rw [e]
  · exact hs
  · unfold engStartW
    split
    · exact ⟨fun _ => .inl rfl, fun _ _ => htr, nofun, fun _ => ⟨nofun, fun _ => htr⟩⟩
    · refine ⟨fun hrdy => ?_, nofun, nofun, fun _ => ⟨nofun, nofun⟩⟩
      rcases hs.transmitReady hrdy with h | h <;> rw [hm] at h <;> cases h
  · exact ⟨fun _ => .inl hm, hs.transmitting, hs.receiving, hs.startAhead⟩
  · exact engAgrees_of_closed (.inr rfl) a nofun
  · refine ⟨nofun, nofun, fun _ => ⟨htr, rfl⟩, fun ha => ?_⟩
    have htr' := (hs.startAhead ha).2 hm
    rw [htr] at htr'
    cases htr'
  · unfold engRx
    split
    · refine engAgrees_of_closed (.inr rfl) a fun hrdy => ?_
      rcases hs.transmitReady hrdy with h | h <;> rw [hm] at h <;> cases h
    · exact ⟨hs.transmitReady, hs.transmitting, hs.receiving, hs.startAhead⟩

theorem busInv_engineStep {s : State} (hs : BusInv s) : BusInv (engineStep s) := by
  have hrem : (engineStep s).remaining = s.remaining := by
    rw [State.remaining, State.remaining, sameBlock_engineStep s]
  rw [busInv_iff] at hs ⊢
  obtain ⟨hbusy, hturns, hagrees⟩ := hs
  rw [hrem]
  exact ⟨modeMatchesBusy_engineStep hbusy, hturns, engAgrees_engineStep hagrees⟩

/-! ### Every step but the unconstrained environment's -/

/-- No step of the block but INIT's changes MODE or BUSY. -/
theorem modeMatchesBusy_performed {s t : State} {ev : Event} (h : Performed s ev t) (hne : ∀ e w, ev ≠ .engineSets e w)
    (hs : modeMatchesBusy s) : modeMatchesBusy t := by
  cases h with
  | served _ _ ha =>
    cases ha with
    | presented hp => cases hp <;> exact hs
    | _ => exact hs
  | micro u => exact modeMatchesBusy_of_eq (modeMatchesBusy_effect hs u) (advance_mode _) (by rw [advance_eng])
  | row _ _ hr =>
    cases hr with
    | evaluated _ hp => cases hp <;> exact hs
    | _ => exact hs
  | engine => exact modeMatchesBusy_engineStep hs
  | engineSets e w => exact absurd rfl (hne e w)
  | reset => trivial
  | _ => exact hs

theorem busInv_performed {s t : State} {ev : Event} (h : Performed s ev t) (hne : ∀ e w, ev ≠ .engineSets e w)
    (hs : BusInv s) : BusInv t := by
  cases h with
  | served _ _ ha => exact busInv_accessed ha (busInv_of_eq hs rfl rfl rfl rfl)
  | micro u hu hen => exact busInv_micro hu hen hs
  | row _ _ hr => exact busInv_row hr hs
  | engine => exact busInv_engineStep hs
  | engineSets e w => exact absurd rfl (hne e w)
  | reset => exact busInv_of_off rfl rfl
  | _ => exact busInv_of_eq hs rfl rfl rfl rfl

/-- Settles O54. -/
theorem stepKeepsBusyWithTheOpenTransaction : Obligations.StepKeepsBusyWithTheOpenTransaction := by
  intro s t h hne
  have hp := performed_of_step h
  exact ⟨modeMatchesBusy_performed (s := s.eventTaken) hp hne,
    fun hs => busInv_performed hp hne (busInv_of_eq hs rfl rfl rfl rfl)⟩

/-! ### After reset -/

theorem outInv_of_host_mode {s : State} (hr : s.run = false) (ho : s.out = []) (hq : s.emitq = []) : OutInv s := by
  rw [OutInv, hr, ho, hq]
  rfl

/-- Settles O58. -/
theorem resetMeetsTheInvariants : Obligations.ResetMeetsTheInvariants :=
  fun _ hc => ⟨machineInv_reset hc, outInv_of_host_mode rfl rfl rfl, busInv_of_off rfl rfl, reset_memory_wf⟩

end Sys2Proof.Machine
end

section
/-! Proofs about the encoding (spec/30_encoding.md) and about the step that accepts a command (R112,
spec/10_state.md R44). -/

namespace Sys2Proof.Machine

/-- Settles O1. -/
theorem decodeOfEncodeIsTheCommand : Obligations.DecodeOfEncodeIsTheCommand :=
  fun i _ => decode_encode i

/-- Settles O3: closed words. -/
theorem wordsOfTheTestVectorsDecode : Obligations.WordsOfTheTestVectorsDecode := by
  unfold Obligations.WordsOfTheTestVectorsDecode
  decide

/-! ### The step that serves a host write to CMD (R44, R112) -/

/-- While a fault is set the word is discarded, as the command's meaning discards it (R46, R112). -/
theorem hostWrite_cmd_exec {s : State} {w : Word} {i : Instr} (h : decode w = .ok i) :
    hostWrite 0x00 w s = exec i s := by
  by_cases hf : s.fault = 0
  · rw [hostWrite_cmd hf, acceptWord_of_ok h]
  · obtain ⟨body, hbody⟩ := exec_eq_accept i s
    rw [hostWrite, if_pos hf, hbody, accept_faulted hf]

theorem hostServe_of_idle {s : State} {r : HostReq} {rest : List HostReq} (hq : s.hostq = r :: rest)
    (hi : s.idle = true) : hostServe s = hostAccess r { s with hostq := rest } := by
  rw [hostServe, hq]
  exact if_pos hi

theorem hostServe_of_not_idle {s : State} (hi : s.idle = false) : hostServe s = .next s := by
  rcases hostServe_cases s with ⟨-, e⟩ | ⟨-, e⟩ | ⟨r, rest, -, hi', -⟩
  · exact e
  · exact e
  · rw [hi] at hi'; cases hi'

/-- The host's event is next where the schedule names it, or where it is empty and the sequencer has no step. -/
theorem nextEvent_host {s : State} (hi : s.idle = true) (hq : s.hostq ≠ [])
    (h : s.sched.head? = some .host ∨ (s.sched = [] ∧ s.sbmcEnabled = false)) : s.nextEvent = .host := by
  rcases h with h | ⟨hs, hen⟩
  · obtain ⟨rest, hrest⟩ := List.head?_eq_some_iff.mp h
    exact nextEvent_cons hrest
  · rw [State.nextEvent, hs]
    simp [btcFirst, hen, hi, hq]

/-- A host write of a decodable word to CMD, served next, is the command's meaning. -/
theorem step_of_cmd_write {s : State} {w : Word} {i : Instr} {rest : List HostReq} (hi : s.idle = true)
    (hq : s.hostq = .write 0x00 w :: rest) (hw : decode w = .ok i) (hev : s.nextEvent = .host) :
    step s = exec i { s with hostq := rest, sched := s.sched.tail } := by
  have hserve := hostServe_of_idle (s := s.eventTaken) hq hi
  rw [step_eq, hev]
  exact hserve.trans (hostWrite_cmd_exec hw)

theorem decode_of_decodeTableWord {nbits w : Nat} {i : Instr} (h : decodeTableWord nbits w = some i) :
    decode (tableWord nbits w) = .ok i := by
  unfold decodeTableWord at h
  split at h
  · rw [← Option.some.inj h]; assumption
  · cases h

/-- Settles O4: both are a host write to CMD as the next event; `withFetchWord` has added the request and the event that
the step takes out again. -/
theorem stepRunsTheDecodedCommand : Obligations.StepRunsTheDecodedCommand := by
  refine ⟨fun s w i rest hi hq hw hnext => ?_, fun s nbits w i hi hw => ?_⟩
  · exact step_of_cmd_write hi hq hw (nextEvent_host hi (by simp [hq]) hnext)
  · exact step_of_cmd_write (s := s.withFetchWord nbits w) hi rfl (decode_of_decodeTableWord hw) rfl

/-- Settles O5. -/
theorem hostRequestIsHeldUntilIdle : Obligations.HostRequestIsHeldUntilIdle := by
  intro s evs hi hs
  rw [step_of_sched hs]
  exact hostServe_of_not_idle hi

/-- Settles O7: acceptance comes first, and discards the word. -/
theorem wordIsDiscardedOnceFaulted : Obligations.WordIsDiscardedOnceFaulted := by
  intro s w h
  obtain ⟨body, hbody⟩ := acceptWord_eq_accept w s
  rw [hbody]
  rcases h with hb | hf
  · rw [accept_busy hb]
  · rw [accept_faulted hf]

end Sys2Proof.Machine
end

section
/-! Proofs about the lists of the transaction commands (spec/40_btc_commands.md R142, R168 to R170). -/

namespace Sys2Proof.Machine

/-! ### The list each command loads (R142) -/

theorem exec_initm_accepted {s : State} (h : s.accepting) :
    exec .initm s = .next (loadList (afterIdle s.initDone .init) s) :=
  congrArg _ (accept_accepting h _ _)

/-- Settles O11. -/
theorem initmAndSetsaLoadTheirLists : Obligations.InitmAndSetsaLoadTheirLists :=
  fun _ h => ⟨exec_initm_accepted h, exec_setsa_accepted h⟩

/-- The bytes WRBS sends, read from TXB as a list. -/
theorem txBytes_eq_map_getD (txb : Vector Byte bufferSize) {n : Nat} (hn : n < 256) :
    txBytes txb n = (List.range n).reverse.map (fun i => txb.toList.getD i 0) := by
  unfold txBytes
  refine List.map_congr_left fun i hi => ?_
  have hi' : i < bufferSize := by
    rw [List.mem_reverse, List.mem_range] at hi
    show i < 255
    omega
  have hlen : i < txb.toList.length := by rw [Vector.length_toList]; exact hi'
  rw [List.getD_eq_getElem _ _ hlen, Vector.getElem_toList]
  simp [Fin.getElem_fin, Fin.ofNat, Nat.mod_eq_of_lt hi']

/-- Settles O12: the three commands are accepted with the lists of `writeList`; a length is at most 255, so no index of
TXB wraps. -/
theorem writeCommandsLoadTheirLists : Obligations.WriteCommandsLoadTheirLists := by
  intro s hs
  refine ⟨fun d => exec_wrb_accepted hs d, fun r d => exec_wrr_accepted hs r d, fun n h1 hd => ?_⟩
  rw [exec_wrbs_accepted hs h1 hd, writeList, txBytes_eq_map_getD _ n.isLt, List.flatMap_map]
  rfl

theorem exec_rdxyz_accepted {s : State} (hs : s.acceptingTransaction) :
    exec .rdxyz s = .next (loadSampleRead (readList s.cfg.params.regData0 7) s) :=
  congrArg _ (accept_transaction hs _ _)

/-- Settles O13: a burst of two or more bytes has the list of `burstStep`. -/
theorem readCommandsLoadTheirLists : Obligations.ReadCommandsLoadTheirLists := by
  intro s hs
  refine ⟨fun r => exec_rdr_accepted hs r, fun hdepth f => ?one, fun f c h2 hd => ?burst, exec_rdxyz_accepted hs⟩
  case one => exact exec_rdrs_accepted hs f (c := 1) (by decide) hdepth
  case burst =>
    have hstep : burstStep c.toNat = fun i =>
        if i = c.toNat - 2 then [.wRx, .nackStop, .rx (Fin.ofNat 255 i)] else [.wRx, .rx (Fin.ofNat 255 i)] := by
      funext i
      exact if_congr (by omega) rfl rfl
    rw [exec_rdrs_accepted hs f (by omega) hd, readList, if_neg (by omega), hstep]
    rfl

/-! ### The lists of a read, by their NACKSTOP (R142, R167) -/

/-- The first `n` iterations of a burst, each a wait and a reception. -/
def receptions (n : Nat) : List MicroOp := (List.range n).flatMap fun i => [.wRx, .rx (Fin.ofNat bufferSize i)]

/-- What stands between the head of a read of `c` bytes and its NACKSTOP. -/
def beforeNack (c : Nat) : List MicroOp := if c ≤ 1 then [] else receptions (c - 2) ++ [.wRx]

/-- What stands after the NACKSTOP of a read of `c` bytes. -/
def afterNack (c : Nat) : List MicroOp :=
  if c ≤ 1 then [.wRx, .rx (Fin.ofNat bufferSize 0)]
  else [.rx (Fin.ofNat bufferSize (c - 2)), .wRx, .rx (Fin.ofNat bufferSize (c - 1))]

/-- The NACKSTOP of a burst stands in its second-to-last iteration. -/
theorem burst_eq (m : Nat) :
    (List.range (m + 2)).flatMap (burstStep (m + 2)) =
      receptions m ++ [.wRx, .nackStop, .rx (Fin.ofNat bufferSize m), .wRx, .rx (Fin.ofNat bufferSize (m + 1))] := by
  have hfirst : (List.range m).flatMap (burstStep (m + 2)) = receptions m := by
    refine List.flatMap_congr fun i hi => if_neg ?_
    rw [List.mem_range] at hi
    omega
  rw [List.range_succ, List.range_succ, List.flatMap_append, List.flatMap_append, hfirst]
  simp [burstStep]

theorem readList_eq (f : Byte) {c : Nat} (hc : 1 ≤ c) :
    readList f c = readHead f ++ (beforeNack c ++ .nackStop :: afterNack c) := by
  unfold readList beforeNack afterNack
  split
  · rfl
  · obtain ⟨m, rfl⟩ : ∃ m, c = m + 2 := ⟨c - 2, by omega⟩
    rw [burst_eq, List.append_assoc]
    rfl

/-- A wait for a reception, or a reception. -/
def MicroOp.receives : MicroOp → Bool
  | .wRx => true
  | .rx _ => true
  | _ => false

theorem receives_of_mem_receptions {n : Nat} {u : MicroOp} (h : u ∈ receptions n) : u.receives = true := by
  obtain ⟨i, -, hu⟩ := List.mem_flatMap.mp h
  simp only [List.mem_cons, List.not_mem_nil, or_false] at hu
  rcases hu with rfl | rfl <;> rfl

theorem receives_of_mem_beforeNack {c : Nat} {u : MicroOp} (h : u ∈ beforeNack c) : u.receives = true := by
  unfold beforeNack at h
  split at h
  · cases h
  · rcases List.mem_append.mp h with h | h
    · exact receives_of_mem_receptions h
    · rw [List.mem_singleton.mp h]; rfl

theorem receives_of_mem_afterNack {c : Nat} {u : MicroOp} (h : u ∈ afterNack c) : u.receives = true := by
  unfold afterNack at h
  split at h <;> simp only [List.mem_cons, List.not_mem_nil, or_false] at h
  · rcases h with rfl | rfl <;> rfl
  · rcases h with rfl | rfl | rfl <;> rfl

/-- A predicate that no wait for a reception and no reception meets counts nothing on either side of the NACKSTOP. -/
theorem countP_eq_zero_of_receives {p : MicroOp → Bool} (hp : ∀ u, u.receives = true → p u = false) {l : List MicroOp}
    (hl : ∀ u ∈ l, u.receives = true) : l.countP p = 0 :=
  List.countP_eq_zero.mpr fun u hu => by rw [hp u (hl u hu)]; exact Bool.false_ne_true

theorem length_receptions (n : Nat) : (receptions n).length = 2 * n := by
  simp [receptions, List.length_flatMap, Nat.mul_comm]

theorem countP_isRx_receptions (n : Nat) : (receptions n).countP MicroOp.isRx = n := by
  simp [receptions, List.countP_flatMap, MicroOp.isRx, Function.comp_def]

theorem countP_isRx_beforeNack (c : Nat) : (beforeNack c).countP MicroOp.isRx = c - 2 := by
  unfold beforeNack
  split
  · simp only [List.countP_nil]; omega
  · rw [List.countP_append, countP_isRx_receptions]
    rfl

/-! ### The lengths of the lists -/

theorem length_writeList (bytes : List Byte) : (writeList bytes).length = 2 * bytes.length + 5 := by
  simp [writeList, List.length_flatMap, Nat.mul_comm]

theorem length_txBytes (txb : Vector Byte bufferSize) (n : Nat) : (txBytes txb n).length = n := by
  simp [txBytes]

theorem length_readList (f : Byte) {c : Nat} (hc : 1 ≤ c) : (readList f c).length = 2 * c + 8 := by
  have hbody : (beforeNack c).length + (afterNack c).length = 2 * c := by
    unfold beforeNack afterNack
    split
    · simp only [List.length_nil, List.length_cons]; omega
    · simp only [List.length_append, List.length_cons, List.length_nil, length_receptions]; omega
  have hhead : (readHead f).length = 7 := rfl
  rw [readList_eq f hc, List.length_append, List.length_append, List.length_cons, hhead]
  omega

/-- Settles O18. -/
theorem commandListsHaveTheirLengths : Obligations.CommandListsHaveTheirLengths :=
  ⟨fun d => length_writeList [d], fun txb n => by rw [length_writeList, length_txBytes],
    fun r d => length_writeList [r, d], fun _ => rfl, fun f _ hc => length_readList f hc⟩

/-! ### The place of NACKSTOP (R169) -/

/-- Where a list is cut at its first `x`. -/
theorem takeWhile_ne_append {x : MicroOp} {l rest : List MicroOp} (h : x ∉ l) :
    (l ++ x :: rest).takeWhile (· ≠ x) = l := by
  rw [List.takeWhile_append_of_pos fun u hu => by simpa using fun he : u = x => h (he ▸ hu),
    List.takeWhile_cons_of_neg (by simp), List.append_nil]

theorem dropWhile_ne_append {x : MicroOp} {l rest : List MicroOp} (h : x ∉ l) :
    (l ++ x :: rest).dropWhile (· ≠ x) = x :: rest := by
  rw [List.dropWhile_append_of_pos fun u hu => by simpa using fun he : u = x => h (he ▸ hu),
    List.dropWhile_cons_of_neg (by simp)]

theorem nackStop_not_mem_before (f : Byte) (c : Nat) : MicroOp.nackStop ∉ readHead f ++ beforeNack c := by
  intro h
  rcases List.mem_append.mp h with h | h
  · simp [readHead] at h
  · cases receives_of_mem_beforeNack h

/-- Settles O19: the list is cut at its one NACKSTOP. -/
theorem nackStopStandsBeforeTheLastByte : Obligations.NackStopStandsBeforeTheLastByte := by
  intro f c hc
  have hbefore := nackStop_not_mem_before f c
  have hafter : MicroOp.nackStop ∉ afterNack c := fun h => by cases receives_of_mem_afterNack h
  rw [readList_eq f hc, ← List.append_assoc, takeWhile_ne_append hbefore, dropWhile_ne_append hbefore]
  refine ⟨?once, by simp [readHead], ?received, ?left⟩
  case once =>
    rw [List.count_append, List.count_cons_self, List.count_eq_zero_of_not_mem hbefore,
      List.count_eq_zero_of_not_mem hafter]
  case received =>
    rw [List.countP_append, countP_isRx_beforeNack]
    exact Nat.zero_add _
  case left =>
    refine List.one_le_countP_iff.mpr ?_
    unfold afterNack
    split
    · exact ⟨.rx (Fin.ofNat bufferSize 0), by simp, rfl⟩
    · exact ⟨.rx (Fin.ofNat bufferSize (c - 1)), by simp, rfl⟩

/-! ### The shape of the lists (R170) -/

/-- STOP or NACKSTOP, as R170 counts them. -/
def MicroOp.isStop (u : MicroOp) : Bool := u == .stop || u == .nackStop

/-- The actions of a write: START, the bytes, STOP. -/
theorem traced_writeList (bytes : List Byte) :
    (writeList bytes).filter MicroOp.traced = .startW :: (bytes.map MicroOp.tx ++ [.stop]) := by
  have hbytes : (bytes.flatMap fun b => [MicroOp.wTx, .tx b]).filter MicroOp.traced = bytes.map MicroOp.tx := by
    induction bytes with
    | nil => rfl
    | cons b rest ih =>
      rw [List.flatMap_cons, List.filter_append, ih]
      rfl
  rw [writeList, List.filter_append, List.filter_append, hbytes]
  rfl

theorem countP_isStop_writeList (bytes : List Byte) : (writeList bytes).countP MicroOp.isStop = 1 := by
  have hbytes : (bytes.flatMap fun b => [MicroOp.wTx, .tx b]).countP MicroOp.isStop = 0 := by
    refine List.countP_eq_zero.mpr fun u hu => ?_
    obtain ⟨b, -, hu⟩ := List.mem_flatMap.mp hu
    simp only [List.mem_cons, List.not_mem_nil, or_false] at hu
    rcases hu with rfl | rfl <;> exact Bool.false_ne_true
  rw [writeList, List.countP_append, List.countP_append, hbytes]
  rfl

theorem countP_isStop_readList (f : Byte) {c : Nat} (hc : 1 ≤ c) : (readList f c).countP MicroOp.isStop = 1 := by
  have hother : ∀ u : MicroOp, u.receives = true → u.isStop = false := by
    intro u hu
    cases u with
    | stop => cases hu
    | nackStop => cases hu
    | _ => rfl
  rw [readList_eq f hc, List.countP_append, List.countP_append, List.countP_cons,
    countP_eq_zero_of_receives hother fun _ => receives_of_mem_beforeNack,
    countP_eq_zero_of_receives hother fun _ => receives_of_mem_afterNack]
  rfl

/-- Settles O20: a write by its actions, a read by its cuts at START_R and at NACKSTOP. -/
theorem transactionListsHaveTheirShape : Obligations.TransactionListsHaveTheirShape := by
  refine ⟨fun bytes => ?write, fun f c hc => ?read⟩
  case write =>
    refine ⟨by rw [traced_writeList]; rfl, countP_isStop_writeList bytes, ?_⟩
    rw [traced_writeList, ← List.cons_append, List.getLast?_append]
    rfl
  case read =>
    have hhead : MicroOp.startR ∉ [.wIdle, .startW, .wTx, .tx f, .wTx] := by simp
    have hcut : readList f c = [.wIdle, .startW, .wTx, .tx f, .wTx] ++
        .startR :: .wStt :: (beforeNack c ++ .nackStop :: afterNack c) := readList_eq f hc
    refine ⟨by rw [hcut]; rfl, countP_isStop_readList f hc, ?noTx, ?noRx⟩
    case noTx =>
      have hreceives {u : MicroOp} (hu : u.receives = true) : u.isTx = false := by
        cases u with
        | tx => cases hu
        | _ => rfl
      rw [hcut, dropWhile_ne_append hhead]
      simp only [List.mem_cons, List.mem_append]
      rintro u (rfl | rfl | hu | rfl | hu)
      · rfl
      · rfl
      · exact hreceives (receives_of_mem_beforeNack hu)
      · rfl
      · exact hreceives (receives_of_mem_afterNack hu)
    case noRx =>
      rw [hcut, takeWhile_ne_append hhead]
      simp [MicroOp.isRx]

end Sys2Proof.Machine
end

section
/-! Proofs about the micro-operations (spec/40_btc_commands.md R143 to R158). -/

namespace Sys2Proof.Machine

/-- With a command in progress the sequencer's step is the current micro-operation's, where enabled (R143, R144). -/
theorem sbmcStep_of_currentOp {s : State} {u : MicroOp} (hu : s.currentOp = some u) :
    sbmcStep s = .next (if u.enabled s.eng = true then advance (u.effect s) else s) := by
  rw [sbmcStep, if_pos (btcStep_ne_zero_of_currentOp hu), microStep, hu]

/-- An action is always enabled (R144). -/
theorem sbmcStep_of_action {s : State} {u : MicroOp} (hu : s.currentOp = some u) (hen : u.enabled s.eng = true) :
    sbmcStep s = .next (advance (u.effect s)) := by
  rw [sbmcStep_of_currentOp hu, if_pos hen]

/-- Settles O15: a wait has no effect of its own. -/
theorem waitsOnlyAdvance : Obligations.WaitsOnlyAdvance := by
  intro s _
  refine ⟨fun hu => ?idle, fun hu => sbmcStep_of_currentOp hu, fun hu => ?stt, fun hu => ?stp,
    fun hu => sbmcStep_of_currentOp hu⟩
  case idle =>
    have hcond : MicroOp.wIdle.enabled s.eng = true ↔ s.eng.busy = false ∧ s.eng.stp = false := by
      simp [MicroOp.enabled]
    exact (sbmcStep_of_currentOp hu).trans (congrArg _ (if_congr hcond rfl rfl))
  case stt =>
    have hcond : MicroOp.wStt.enabled s.eng = true ↔ s.eng.stt = false := by simp [MicroOp.enabled]
    exact (sbmcStep_of_currentOp hu).trans (congrArg _ (if_congr hcond rfl rfl))
  case stp =>
    have hcond : MicroOp.wStp.enabled s.eng = true ↔ s.eng.stp = false := by simp [MicroOp.enabled]
    exact (sbmcStep_of_currentOp hu).trans (congrArg _ (if_congr hcond rfl rfl))

/-- Settles O16: each action's writes are its effect. -/
theorem actionsWriteWhatTheirRulesSay : Obligations.ActionsWriteWhatTheirRulesSay :=
  fun _ _ => ⟨fun hu => sbmcStep_of_action hu rfl, fun hu => sbmcStep_of_action hu rfl,
    fun hu => sbmcStep_of_action hu rfl, fun _ hu => sbmcStep_of_action hu rfl, fun hu => sbmcStep_of_action hu rfl,
    fun hu => sbmcStep_of_action hu rfl, fun _ hu => sbmcStep_of_action hu rfl, fun _ hu => sbmcStep_of_action hu rfl⟩

theorem advance_of_lt {s : State} (h : s.btcStep < s.ulist.length) : advance s = { s with btcStep := s.btcStep + 1 } :=
  if_pos h

theorem advance_last {s : State} (h : s.ulist.length ≤ s.btcStep) (hx : s.btcXyz = false) :
    advance s = completeList s := by
  rw [advance, if_neg (Nat.not_lt.mpr h), hx, if_neg Bool.false_ne_true]

theorem advance_last_of_rdxyz {s : State} (h : s.ulist.length ≤ s.btcStep) (hx : s.btcXyz = true) :
    advance s = completeList (latchSample s) := by
  rw [advance, if_neg (Nat.not_lt.mpr h), hx, if_pos rfl]

/-- Settles O17. -/
theorem lastMicroOperationCompletesTheCommand : Obligations.LastMicroOperationCompletesTheCommand :=
  fun _ => ⟨advance_of_lt, advance_last, advance_last_of_rdxyz⟩

end Sys2Proof.Machine
end

section
/-! Proofs about RUN (spec/43_clf.md R241), OTX (R260), stores of the host (spec/10_state.md R46), the registers made of
flags (R21, R25, R29), and reset (R48, spec/70_reset_and_hazards.md R310). -/

namespace Sys2Proof.Machine

/-- Settles O33. -/
theorem runStartsTheCourse : Obligations.RunStartsTheCourse :=
  fun _ h _ => congrArg _ (accept_accepting h _ _)

/-- Settles O39. -/
theorem otxOnlyClearsItsBusy : Obligations.OtxOnlyClearsItsBusy := by
  intro s evs h
  rw [step_of_sched h]
  rfl

/-! ### Stores in HOST mode (R46) -/

theorem storeReg_host {s : State} (hr : s.run = false) (off : BitVec 8) (store : State → State) :
    storeReg off store s = store s :=
  if_neg (by simp [hr])

theorem hostWrite_of_fault {s : State} (hf : s.fault ≠ 0) (off : BitVec 8) (v : Word) : hostWrite off v s = .next s :=
  if_pos hf

/-- What a write stores in an RW* register: the word, or its low byte in TXB. -/
def HostReg.store (v : Word) (s : State) : HostReg → State
  | .acc => { s with acc := v }
  | .vel => { s with vel := v }
  | .dist => { s with dist := v }
  | .txb k => { s with txb := s.txb.set k.val (v.extractLsb' 0 8) }
  | _ => s

/-- In HOST mode a write to an RW* register is its store. -/
theorem hostWrite_stores {s : State} (hf : s.fault = 0) (hr : s.run = false) {off : BitVec 8} {r : HostReg}
    (h : hostReg off = some r) (hw : r.hostModeWritable = true) (v : Word) :
    hostWrite off v s = .next (r.store v s) := by
  rw [hostWrite, if_neg (not_not.mpr hf), h]
  cases r with
  | acc | vel | dist | txb => exact congrArg _ (storeReg_host hr _ _)
  | _ => cases hw

/-- Settles O45: the offsets select RW* registers by the map. -/
theorem hostWriteStoresItsRegister : Obligations.HostWriteStoresItsRegister := by
  intro s v
  refine ⟨fun hf hr => ?_, fun hf off => hostWrite_of_fault hf off v⟩
  have single {i : Nat} (hi : i < 48) (hw : (hostRegAt i).hostModeWritable = true) :=
    hostWrite_stores hf hr (hostReg_four_mul hi) hw v
  exact ⟨single (i := 6) (by decide) rfl, single (i := 7) (by decide) rfl, single (i := 8) (by decide) rfl,
    fun k => hostWrite_stores hf hr (hostReg_txb k) rfl v⟩

/-! ### The registers made of flags (R21, R25, R29) -/

/-- A flag at bit `n` of a register. -/
theorem flag_getLsbD (b : Bool) {n : Nat} (hn : n < 32) (i : Nat) :
    ((BitVec.ofBool b).setWidth 32 <<< n).getLsbD i = (i == n && b) := by
  rw [BitVec.getLsbD_shiftLeft, BitVec.getLsbD_setWidth, BitVec.getLsbD_ofBool]
  rcases lt_trichotomy i n with h | rfl | h
  · simp [h, h.ne]
  · simp [hn]
  · have h1 : i - n ≠ 0 := by omega
    simp [h1, h.ne']

theorem status_getLsbD (s : State) (i : Nat) :
    s.status.getLsbD i = ((i == 0 && s.tickPend) || (i == 1 && s.tickOvr) || (i == 2 && s.fault != 0)) := by
  have hzero := flag_getLsbD s.tickPend (n := 0) (by decide) i
  rw [BitVec.shiftLeft_zero] at hzero
  rw [State.status, BitVec.getLsbD_or, BitVec.getLsbD_or, flag_getLsbD _ (by decide), flag_getLsbD _ (by decide), hzero,
    State.halt, Bool.or_comm, Bool.or_assoc, Bool.or_comm (i == 2 && _)]

theorem bctl_getLsbD (s : State) (i : Nat) :
    s.bctl.getLsbD i =
      ((decide (i < 7) && s.sa.getLsbD i) || (i == 8 && s.saValid) || (i == 9 && s.initDone)) := by
  have hsa : (s.sa.setWidth 32).getLsbD i = (decide (i < 7) && s.sa.getLsbD i) := by
    rw [BitVec.getLsbD_setWidth]
    by_cases h : i < 7
    · simp [h, (by omega : i < 32)]
    · simp [BitVec.getLsbD_of_ge s.sa i (by omega)]
  rw [State.bctl, BitVec.getLsbD_or, BitVec.getLsbD_or, flag_getLsbD _ (by decide), flag_getLsbD _ (by decide), hsa,
    Bool.or_comm, Bool.or_assoc, Bool.or_comm (i == 9 && _)]

/-- A field moved up inside 32 bits. -/
theorem shifted_toNat {w : Nat} (x : BitVec w) {n : Nat} (h : w + n ≤ 32) :
    (x.setWidth 32 <<< n).toNat = x.toNat <<< n := by
  have hx : x.toNat < 2 ^ w := x.isLt
  have hw : 2 ^ w * 2 ^ n ≤ 2 ^ 32 := by rw [← pow_add]; exact Nat.pow_le_pow_right (by decide) h
  have hlt : x.toNat * 2 ^ n < 2 ^ 32 := (Nat.mul_lt_mul_of_pos_right hx (Nat.two_pow_pos n)).trans_le hw
  have hle : x.toNat < 2 ^ 32 := (Nat.le_mul_of_pos_right _ (Nat.two_pow_pos n)).trans_lt hlt
  rw [BitVec.toNat_shiftLeft, BitVec.toNat_setWidth, Nat.mod_eq_of_lt hle, Nat.shiftLeft_eq, Nat.mod_eq_of_lt hlt]

theorem shiftLeft_or_eq_add (a : Nat) {b n : Nat} (h : b < 2 ^ n) : a <<< n ||| b = a * 2 ^ n + b := by
  rw [← Nat.shiftLeft_add_eq_or_of_lt h, Nat.shiftLeft_eq]

/-- CLS's fields do not overlap, so they add. -/
theorem cls_toNat (s : State) :
    s.cls.toNat = (phaseBits s.phase).toNat + 4 * s.run.toNat + 2 ^ 8 * s.ramp.toNat + 2 ^ 16 * s.dwell.toNat := by
  have hphase : (phaseBits s.phase).toNat < 2 ^ 2 := (phaseBits s.phase).isLt
  have hrun := Bool.toNat_le s.run
  have hramp : s.ramp.toNat < 2 ^ 8 := s.ramp.isLt
  have hphase32 : ((phaseBits s.phase).setWidth 32).toNat = (phaseBits s.phase).toNat := by
    have h := shifted_toNat (phaseBits s.phase) (n := 0) (by decide)
    rwa [BitVec.shiftLeft_zero, Nat.shiftLeft_zero] at h
  calc s.cls.toNat
      = s.dwell.toNat <<< 16 |||
          (s.ramp.toNat <<< 8 ||| (s.run.toNat <<< 2 ||| (phaseBits s.phase).toNat)) := by
        rw [State.cls, BitVec.or_assoc, BitVec.or_assoc, BitVec.toNat_or, BitVec.toNat_or, BitVec.toNat_or, hphase32,
          shifted_toNat _ (by decide), shifted_toNat _ (by decide), shifted_toNat _ (by decide), BitVec.toNat_ofBool]
    _ = s.dwell.toNat * 2 ^ 16 + (s.ramp.toNat * 2 ^ 8 + (s.run.toNat * 2 ^ 2 + (phaseBits s.phase).toNat)) := by
        rw [shiftLeft_or_eq_add _ hphase, shiftLeft_or_eq_add s.ramp.toNat (by omega), shiftLeft_or_eq_add _ (by omega)]
    _ = _ := by omega

/-- Settles O47. -/
theorem flagRegistersReadTheirFields : Obligations.FlagRegistersReadTheirFields :=
  fun s => ⟨status_getLsbD s, bctl_getLsbD s, cls_toNat s⟩

/-! ### Reset (R48, R310) -/

/-- Every register is made of fields that reset clears. -/
theorem readReg_reset (r : HostReg) : readReg State.reset r = 0 := by
  cases r with
  | txb k | rxb k => simp [readReg, State.reset, zext32]
  | _ => rfl

/-- Settles O51: a read returns 0 at an illegal offset, and a register at a legal one. -/
theorem resetLeavesEveryRegisterZero : Obligations.ResetLeavesEveryRegisterZero := by
  refine ⟨fun off => ?_, rfl, rfl, rfl, rfl, rfl, rfl, rfl, rfl, rfl, rfl, rfl, rfl, rfl⟩
  cases h : hostReg off with
  | none => rw [hostRead_of_illegal rfl h]
  | some r => rw [hostRead_of_hostReg h, readReg_reset]

/-- Settles O52: the step is the reset event on the state with the event taken out. -/
theorem resetEventRestoresTheResetState : Obligations.ResetEventRestoresTheResetState := by
  intro s evs h
  exact ⟨_, step_of_sched h, rfl⟩

end Sys2Proof.Machine
end
